-- ==== Sys2Proof/Word.lean ====
section
/-! DEFINITION. The widths of the block: register words, bytes, access descriptors, and the window and table fields of a descriptor. -/

namespace Sys2Proof

/-- A 32-bit value: a register, a command word, the data of a host access (00_scope.md R8, R9). -/
abbrev Word := BitVec 32

/-- One byte of the buffer, of a table or of a host access. -/
abbrev Byte := BitVec 8

/-- An ACC16 descriptor of one host access (30_encoding.md R75). -/
abbrev Descriptor := BitVec 16

/-- A flag as the lowest bit of a word, `zext_32` of a truth value (00_scope.md R10). -/
def bitWord (b : Bool) : Word := if b then 1#32 else 0#32

end Sys2Proof
end

