-- ==== Sys2Proof/Syntax.lean ====
section
/-! DEFINITION. The instructions of the block, one constructor for each row of spec/opcode_table.json, and the two formats in which
they arrive (00_scope.md R3, 30_encoding.md R75). -/

namespace Sys2Proof

/-- One instruction: a CMD32 command or an ACC16 host access. `off` is a window offset, `k` a buffer offset, `v` the data of a write. -/
inductive Instr where
  /-- NOP (44_classify.md R165). -/
  | nop
  /-- EDC_BLOCK (41_edc.md R114). -/
  | edcBlock
  /-- EDC_COMPARE (41_edc.md R115). -/
  | edcCompare
  /-- ECC_VERIFY with its ZA and VIEW bits (42_ecc.md R134). -/
  | eccVerify (za view : Bool)
  /-- SYNC_DETECT (43_sync_subheader.md R152). -/
  | syncDetect
  /-- SUBHDR_CHECK (43_sync_subheader.md R153). -/
  | subhdrCheck
  /-- CLASSIFY with its M1 bit (44_classify.md R162). -/
  | classify (m1 : Bool)
  /-- Any other command word (30_encoding.md R79). -/
  | illegalCmd (w : Word)
  /-- `rd32 ID` (45_host_access.md R250, as every register read below). -/
  | rd32Id
  | rd32Cmd
  | rd32Status
  | rd32Errcode
  | rd32Result
  | rd32EdcAcc
  | rd32EdcData
  | rd32ArgOff
  | rd32ArgLen
  | rd32Avail
  | rd32IrqEn
  | rd8EdcData
  | rd16EdcData
  /-- `wr32 CMD, w` (45_host_access.md R251). -/
  | wr32Cmd (v : Word)
  /-- `wr32 STATUS, v` (45_host_access.md R252). -/
  | wr32Status (v : Word)
  /-- `wr32 ERRCODE, v` (45_host_access.md R253). -/
  | wr32Errcode (v : Word)
  /-- `wr32 EDC_ACC, v` (45_host_access.md R254). -/
  | wr32EdcAcc (v : Word)
  /-- `wr32 ARG_OFF, v` (45_host_access.md R255). -/
  | wr32ArgOff (v : Word)
  /-- `wr32 ARG_LEN, v` (45_host_access.md R256). -/
  | wr32ArgLen (v : Word)
  /-- `wr32 AVAIL, v` (45_host_access.md R257). -/
  | wr32Avail (v : Word)
  /-- `wr32 IRQ_EN, v` (45_host_access.md R258). -/
  | wr32IrqEn (v : Word)
  /-- `wr8 EDC_DATA, v` (41_edc.md R113). -/
  | wr8EdcData (v : Byte)
  /-- `wr16 EDC_DATA, v` (41_edc.md R113). -/
  | wr16EdcData (v : BitVec 16)
  /-- `wr32 EDC_DATA, v` (41_edc.md R113). -/
  | wr32EdcData (v : Word)
  /-- A table read at a window offset (45_host_access.md R259). -/
  | rd8Table (off : BitVec 13)
  | rd16Table (off : BitVec 13)
  | rd32Table (off : BitVec 13)
  /-- A buffer read at a buffer offset (45_host_access.md R260). -/
  | rd8Buf (k : BitVec 12)
  | rd16Buf (k : BitVec 12)
  | rd32Buf (k : BitVec 12)
  /-- A buffer write at a buffer offset (45_host_access.md R261). -/
  | wr8Buf (k : BitVec 12) (v : Byte)
  | wr16Buf (k : BitVec 12) (v : BitVec 16)
  | wr32Buf (k : BitVec 12) (v : Word)
  /-- Any other access descriptor (45_host_access.md R262). -/
  | illegalAccess (d : Descriptor)
  deriving DecidableEq, Repr

/-- The two formats, told apart by where they arrive and never by their bits (30_encoding.md R75). -/
inductive Wire where
  /-- A command word, the data of a 4-byte host write to CMD. -/
  | cmd32 (w : Word)
  /-- A host access: its descriptor and the data it carries (a read's data means nothing). -/
  | acc16 (d : Descriptor) (v : Word)
  deriving DecidableEq, Repr

end Sys2Proof
end

