-- ==== Sys2Proof/WellFormed.lean ====
section
/-! DEFINITION. Which instructions are well formed: the operand ranges of 30_encoding.md R83, and the two catch-all rows, which hold
only what no other row takes (R79, R57). -/

namespace Sys2Proof

/-- Rule R79's test of a command word, on its bits. -/
def legalWord (w : Word) : Bool :=
  w.extractLsb' 7 25 == 0#25
    && decide ((w.extractLsb' 0 4).toNat ≤ 6)
    && (w.extractLsb' 4 2 == 0#2 || w.extractLsb' 0 4 == 3#4)
    && (!w.getLsbD 6 || w.extractLsb' 0 4 == 6#4)

/-- An offset `off` of a naturally aligned access of `n` bytes inside the window region from `lo` up to `hi` (20_memory.md R57). -/
def alignedIn (lo hi n off : Nat) : Bool :=
  decide (lo ≤ off) && decide (off < hi) && off % n == 0

/-- Rule R57's list of the legal accesses: write or read, size in bytes, window offset. -/
def legalAccess (wr : Bool) (n off : Nat) : Bool :=
  (n == 1 || n == 2 || n == 4)
    && ((alignedIn 0 0x02C 4 off && n == 4 && !(wr && (off == 0x000 || off == 0x010)))
      || (off == 0x018 && (n == 1 || n == 2))
      || (alignedIn 0x400 0xA00 n off && !wr)
      || alignedIn 0x1000 0x1930 n off)

/-- The size in bytes that an SZ field names; SZ = 3 names none, written 0 (30_encoding.md R75). -/
def sizeOfSz (sz : BitVec 2) : Nat :=
  if sz == 0#2 then 1 else if sz == 1#2 then 2 else if sz == 2#2 then 4 else 0

/-- A legal ACC16 descriptor (30_encoding.md R80). -/
def legalDescriptor (d : Descriptor) : Bool :=
  legalAccess (d.getLsbD 15) (sizeOfSz (d.extractLsb' 13 2)) (d.extractLsb' 0 13).toNat

/-- Well-formed instructions: every operand at a value its encoding admits. -/
def WellFormed (i : Instr) : Bool :=
  match i with
  | .nop | .edcBlock | .edcCompare | .eccVerify _ _ | .syncDetect | .subhdrCheck | .classify _ => true
  | .illegalCmd w => !legalWord w
  | .rd32Id | .rd32Cmd | .rd32Status | .rd32Errcode | .rd32Result | .rd32EdcAcc | .rd32EdcData | .rd32ArgOff
  | .rd32ArgLen | .rd32Avail | .rd32IrqEn | .rd8EdcData | .rd16EdcData => true
  | .wr32Cmd _ | .wr32Status _ | .wr32Errcode _ | .wr32EdcAcc _ | .wr32ArgOff _ | .wr32ArgLen _ | .wr32Avail _
  | .wr32IrqEn _ | .wr8EdcData _ | .wr16EdcData _ | .wr32EdcData _ => true
  | .rd8Table off => alignedIn 0x400 0xA00 1 off.toNat
  | .rd16Table off => alignedIn 0x400 0xA00 2 off.toNat
  | .rd32Table off => alignedIn 0x400 0xA00 4 off.toNat
  | .rd8Buf k => alignedIn 0 0x930 1 k.toNat
  | .rd16Buf k => alignedIn 0 0x930 2 k.toNat
  | .rd32Buf k => alignedIn 0 0x930 4 k.toNat
  | .wr8Buf k _ => alignedIn 0 0x930 1 k.toNat
  | .wr16Buf k _ => alignedIn 0 0x930 2 k.toNat
  | .wr32Buf k _ => alignedIn 0 0x930 4 k.toNat
  | .illegalAccess d => !legalDescriptor d

end Sys2Proof
end

