-- ==== Sys2Proof/Decode.lean ====
section
/-! DEFINITION. The decoder, total on every command word and every access descriptor (30_encoding.md R81), and the encoder.
What is no legal word decodes to `illegalCmd`, what is no legal access to `illegalAccess`: the spec's own names for them. -/

namespace Sys2Proof

/-- A command word from its fields (30_encoding.md R76). -/
def cmdWord (op : BitVec 4) (za view m1 : Bool) : Word :=
  BitVec.setWidth 32 op ||| (bitWord za <<< 4) ||| (bitWord view <<< 5) ||| (bitWord m1 <<< 6)

/-- The CMD32 format (30_encoding.md R82): the eleven legal words, and every other word illegal (R79). -/
def decodeCmd32 (w : Word) : Instr :=
  match w with
  | 0x00000000#32 => .nop
  | 0x00000001#32 => .edcBlock
  | 0x00000002#32 => .edcCompare
  | 0x00000003#32 => .eccVerify false false
  | 0x00000013#32 => .eccVerify true false
  | 0x00000023#32 => .eccVerify false true
  | 0x00000033#32 => .eccVerify true true
  | 0x00000004#32 => .syncDetect
  | 0x00000005#32 => .subhdrCheck
  | 0x00000006#32 => .classify false
  | 0x00000046#32 => .classify true
  | _ => .illegalCmd w

/-- The bytes of an access by its SZ field 0, 1 or 2 (30_encoding.md R75). -/
def bytesOfSz (sz : BitVec 2) : Nat := 1 <<< sz.toNat

/-- A naturally aligned offset inside a region of the window map (20_memory.md R51, R57). -/
def inRegion (lo hi : BitVec 13) (sz : BitVec 2) (off : BitVec 13) : Bool :=
  decide (lo ≤ off) && decide (off < hi) && off.toNat % bytesOfSz sz == 0

/-- The rows of the ACC16 format with an offset field (30_encoding.md R83): table reads, buffer reads and buffer writes by their
size, naturally aligned; every other descriptor illegal (R80). -/
def decodeWindow (d : Descriptor) (v : Word) : Instr :=
  let wr := d.getLsbD 15
  let sz := d.extractLsb' 13 2
  let off := d.extractLsb' 0 13
  let k := d.extractLsb' 0 12
  if sz == 3#2 then .illegalAccess d
  else if inRegion 0x400#13 0xA00#13 sz off then
    if wr then .illegalAccess d
    else if sz == 0#2 then .rd8Table off
    else if sz == 1#2 then .rd16Table off
    else .rd32Table off
  else if inRegion 0x1000#13 0x1930#13 sz off then
    if wr then
      if sz == 0#2 then .wr8Buf k (v.setWidth 8)
      else if sz == 1#2 then .wr16Buf k (v.setWidth 16)
      else .wr32Buf k v
    else if sz == 0#2 then .rd8Buf k
    else if sz == 1#2 then .rd16Buf k
    else .rd32Buf k
  else .illegalAccess d

/-- The ACC16 format: the rows that one descriptor makes up, then the rows with an offset field. A write takes the byte lanes of
its own size from the data (20_memory.md R55). -/
def decodeAcc16 (d : Descriptor) (v : Word) : Instr :=
  match d with
  | 0x4000#16 => .rd32Id
  | 0x4004#16 => .rd32Cmd
  | 0x4008#16 => .rd32Status
  | 0x400C#16 => .rd32Errcode
  | 0x4010#16 => .rd32Result
  | 0x4014#16 => .rd32EdcAcc
  | 0x4018#16 => .rd32EdcData
  | 0x401C#16 => .rd32ArgOff
  | 0x4020#16 => .rd32ArgLen
  | 0x4024#16 => .rd32Avail
  | 0x4028#16 => .rd32IrqEn
  | 0x0018#16 => .rd8EdcData
  | 0x2018#16 => .rd16EdcData
  | 0xC004#16 => .wr32Cmd v
  | 0xC008#16 => .wr32Status v
  | 0xC00C#16 => .wr32Errcode v
  | 0xC014#16 => .wr32EdcAcc v
  | 0xC01C#16 => .wr32ArgOff v
  | 0xC020#16 => .wr32ArgLen v
  | 0xC024#16 => .wr32Avail v
  | 0xC028#16 => .wr32IrqEn v
  | 0x8018#16 => .wr8EdcData (v.setWidth 8)
  | 0xA018#16 => .wr16EdcData (v.setWidth 16)
  | 0xC018#16 => .wr32EdcData v
  | _ => decodeWindow d v

/-- The decoder of both formats (30_encoding.md R75, R81). -/
def decode (x : Wire) : Instr :=
  match x with
  | .cmd32 w => decodeCmd32 w
  | .acc16 d v => decodeAcc16 d v

/-- The bits that the host numbers as `w` in a row of `nbits` bits, as they arrive: 32 bits are a command word; 16 bits an access
descriptor, whose data is 0; 48 bits a descriptor with its data above it (log entry 16). -/
def tableWire (nbits w : Nat) : Option Wire :=
  if nbits == 32 then some (.cmd32 (BitVec.ofNat 32 w))
  else if nbits == 16 then some (.acc16 (BitVec.ofNat 16 w) 0#32)
  else if nbits == 48 then some (.acc16 (BitVec.ofNat 16 w) (BitVec.ofNat 32 (w >>> 16)))
  else none

/-- The instruction that the decoder reads from an instruction whose bits are `w`, numbered as spec/opcode_table.json numbers them. -/
def decodeTableWord (nbits w : Nat) : Option Instr :=
  (tableWire nbits w).map decode

/-- An ACC16 descriptor from its fields (30_encoding.md R75). -/
def accDescriptor (wr : Bool) (sz : BitVec 2) (off : BitVec 13) : Descriptor :=
  BitVec.ofBool wr ++ sz ++ off

/-- The descriptor of a buffer access: window offset `0x1000 + k` (20_memory.md R53). -/
def bufDescriptor (wr : Bool) (sz : BitVec 2) (k : BitVec 12) : Descriptor :=
  accDescriptor wr sz (1#1 ++ k)

/-- The encoder: the word of a command, or the descriptor and data of an access (30_encoding.md R82, R83). A read carries no data,
written 0, and so does an illegal access, whose data has no effect. -/
def encode (i : Instr) : Wire :=
  match i with
  | .nop => .cmd32 (cmdWord 0#4 false false false)
  | .edcBlock => .cmd32 (cmdWord 1#4 false false false)
  | .edcCompare => .cmd32 (cmdWord 2#4 false false false)
  | .eccVerify za view => .cmd32 (cmdWord 3#4 za view false)
  | .syncDetect => .cmd32 (cmdWord 4#4 false false false)
  | .subhdrCheck => .cmd32 (cmdWord 5#4 false false false)
  | .classify m1 => .cmd32 (cmdWord 6#4 false false m1)
  | .illegalCmd w => .cmd32 w
  | .rd32Id => .acc16 (accDescriptor false 2#2 0x000#13) 0#32
  | .rd32Cmd => .acc16 (accDescriptor false 2#2 0x004#13) 0#32
  | .rd32Status => .acc16 (accDescriptor false 2#2 0x008#13) 0#32
  | .rd32Errcode => .acc16 (accDescriptor false 2#2 0x00C#13) 0#32
  | .rd32Result => .acc16 (accDescriptor false 2#2 0x010#13) 0#32
  | .rd32EdcAcc => .acc16 (accDescriptor false 2#2 0x014#13) 0#32
  | .rd32EdcData => .acc16 (accDescriptor false 2#2 0x018#13) 0#32
  | .rd32ArgOff => .acc16 (accDescriptor false 2#2 0x01C#13) 0#32
  | .rd32ArgLen => .acc16 (accDescriptor false 2#2 0x020#13) 0#32
  | .rd32Avail => .acc16 (accDescriptor false 2#2 0x024#13) 0#32
  | .rd32IrqEn => .acc16 (accDescriptor false 2#2 0x028#13) 0#32
  | .rd8EdcData => .acc16 (accDescriptor false 0#2 0x018#13) 0#32
  | .rd16EdcData => .acc16 (accDescriptor false 1#2 0x018#13) 0#32
  | .wr32Cmd v => .acc16 (accDescriptor true 2#2 0x004#13) v
  | .wr32Status v => .acc16 (accDescriptor true 2#2 0x008#13) v
  | .wr32Errcode v => .acc16 (accDescriptor true 2#2 0x00C#13) v
  | .wr32EdcAcc v => .acc16 (accDescriptor true 2#2 0x014#13) v
  | .wr32ArgOff v => .acc16 (accDescriptor true 2#2 0x01C#13) v
  | .wr32ArgLen v => .acc16 (accDescriptor true 2#2 0x020#13) v
  | .wr32Avail v => .acc16 (accDescriptor true 2#2 0x024#13) v
  | .wr32IrqEn v => .acc16 (accDescriptor true 2#2 0x028#13) v
  | .wr8EdcData v => .acc16 (accDescriptor true 0#2 0x018#13) (v.setWidth 32)
  | .wr16EdcData v => .acc16 (accDescriptor true 1#2 0x018#13) (v.setWidth 32)
  | .wr32EdcData v => .acc16 (accDescriptor true 2#2 0x018#13) v
  | .rd8Table off => .acc16 (accDescriptor false 0#2 off) 0#32
  | .rd16Table off => .acc16 (accDescriptor false 1#2 off) 0#32
  | .rd32Table off => .acc16 (accDescriptor false 2#2 off) 0#32
  | .rd8Buf k => .acc16 (bufDescriptor false 0#2 k) 0#32
  | .rd16Buf k => .acc16 (bufDescriptor false 1#2 k) 0#32
  | .rd32Buf k => .acc16 (bufDescriptor false 2#2 k) 0#32
  | .wr8Buf k v => .acc16 (bufDescriptor true 0#2 k) (v.setWidth 32)
  | .wr16Buf k v => .acc16 (bufDescriptor true 1#2 k) (v.setWidth 32)
  | .wr32Buf k v => .acc16 (bufDescriptor true 2#2 k) v
  | .illegalAccess d => .acc16 d 0#32

end Sys2Proof
end

