-- ==== Sys2Proof/Config.lean ====
section
/-! DEFINITION. What the spec fixes once for the block (00_scope.md R7, R8), and the one free value of the model. -/

namespace Sys2Proof

/-- The value of the ID register, `45 43 4D 00` little-endian (00_scope.md R2, 10_state.md R21). -/
def Config.idValue : Word := 0x004D4345#32

/-- Bytes of the sector buffer (00_scope.md R8). -/
abbrev Config.bufSize : Nat := 2352

/-- Bytes of a mode-1 sector (00_scope.md R7). -/
abbrev Config.mode1Size : Nat := 2352

/-- Bytes of a mode-2 sector of either form (00_scope.md R7). -/
abbrev Config.mode2Size : Nat := 2336

/-- The EDC feedback constant (00_scope.md R7). -/
def Config.edcFeedback : Word := 0xD8018001#32

/-- The low eight bits of the ECC generator constant `0x11D` (00_scope.md R7, 40_tables.md R101). -/
def Config.eccGenerator : Byte := 0x1D#8

/-- The geometry of one parity code: its counts, its major stride and its minor increment (00_scope.md R7). -/
structure Geometry where
  majorCount : Nat
  minorCount : Nat
  majorMult : Nat
  minorInc : Nat
  deriving DecidableEq, Repr

/-- The P code: 86 major groups of 24 minor steps, major stride 2, minor increment 86 (00_scope.md R7). -/
def Config.pCode : Geometry := ⟨86, 24, 2, 86⟩

/-- The Q code: 52 major groups of 43 minor steps, major stride 86, minor increment 88 (00_scope.md R7). -/
def Config.qCode : Geometry := ⟨52, 43, 86, 88⟩

/-- FREE VALUE (log entry 10): what the buffer would give at an offset that holds no written byte.
The fault UninitRead comes before any such read in every state that a run reaches, so nothing rests on it. -/
opaque Config.unwrittenByte : Int → Byte

end Sys2Proof
end

