-- ==== Sys2Proof/Machine/State.lean ====
section
/-! DEFINITION. The state of the block as plain data, all that 10_state.md gives it, and its value after reset. -/

namespace Sys2Proof.Machine

/-- Why the machine stops. -/
inductive Fault where
  /-- `fault UninitRead(k)`: a host read of the unwritten buffer byte `k`, or the completion of a command whose read footprint holds
  it, `k` the lowest such offset (10_state.md R37, 60_exceptions.md R193). Raised by the buffer reads, by the completion of
  EDC_BLOCK, EDC_COMPARE, ECC_VERIFY, SYNC_DETECT, SUBHDR_CHECK and CLASSIFY, and by every step of a run that has already faulted.
  Safe: the hardware would go on with some value of the byte. -/
  | uninitRead (k : Nat)
  deriving DecidableEq, Repr

/-- Why the model gives an instruction no meaning. No instruction of this block is refused. -/
inductive Refusal where
  /-- The instruction is not modelled, named as spec/opcode_table.json names it. Raised by no arm of exec. Safe. -/
  | notModelled (mnemonic : String)
  deriving DecidableEq, Repr

/-- The pending command: the accepted word and the operands latched at its issue (10_state.md R34). -/
structure Pending where
  word : Word
  off : Word
  len : Word
  avail : Word
  acc : Word
  deriving DecidableEq, Repr

/-- PHASE, with the pending command when BUSY (10_state.md R34). -/
inductive Engine where
  | idle
  | busy (p : Pending)
  deriving DecidableEq, Repr

/-- One step still to come in the total order of steps (20_memory.md R63): a host access with its descriptor and data
(30_encoding.md R75), a turn of the engine (10_state.md R34), or a reset (70_reset_and_hazards.md R210). -/
inductive Event where
  | access (d : Descriptor) (v : Word)
  | engine
  | reset
  deriving DecidableEq, Repr

/-- The written bytes of the sector buffer by offset, in strictly rising order; an offset not listed is unwritten (10_state.md R37). -/
abbrev Memory := List Host.Cell

/-- The state of the block. -/
structure State where
  /-- CMD (10_state.md R22). -/
  cmd : Word
  /-- STATUS.DONE (10_state.md R23). -/
  done : Bool
  /-- ERRCODE.CODE (10_state.md R24). -/
  errcode : BitVec 4
  /-- RESULT (10_state.md R25). -/
  result : Word
  /-- EDC_ACC (10_state.md R26). -/
  edcAcc : Word
  /-- ARG_OFF (10_state.md R28). -/
  argOff : Word
  /-- ARG_LEN (10_state.md R29). -/
  argLen : Word
  /-- AVAIL (10_state.md R30). -/
  avail : Word
  /-- IRQ_EN, bit 0 DONE_IE and bit 1 ERR_IE (10_state.md R31). -/
  irqEn : BitVec 2
  /-- PHASE and the pending command (10_state.md R34). -/
  engine : Engine
  /-- BUF with its written marks (10_state.md R37). -/
  buf : Memory
  /-- The fault record (10_state.md R40). -/
  fault : Option Nat
  /-- The value that the latest host read returned: the model's own field (log entry 5). -/
  rdata : Option Word
  /-- The steps still to come: the model's own field (log entry 2). -/
  inputs : List Event
  deriving DecidableEq, Repr

/-- Every piece of state after a reset (10_state.md R41): no read answered and no step to come are the model's own choice
(log entries 5 and 8). -/
def State.reset : State where
  cmd := 0#32
  done := false
  errcode := 0#4
  result := 0#32
  edcAcc := 0#32
  argOff := 0#32
  argLen := 0#32
  avail := 0#32
  irqEn := 0#2
  engine := .idle
  buf := []
  fault := none
  rdata := none
  inputs := []

end Sys2Proof.Machine
end

