-- ==== Sys2Proof/Machine/Flags.lean ====
section
/-! DEFINITION. The flags: STATUS and its live views (10_state.md R23, R35), the interrupt output (60_exceptions.md R195), the error
codes and their recording (R180, R181), and the layout of RESULT (10_state.md R25). -/

namespace Sys2Proof.Machine

/-- The error codes of rule R180. -/
inductive ErrCode where
  | illegalCmd
  | range
  | precond
  | busy
  | access
  deriving DecidableEq, Repr

/-- The number of an error code (60_exceptions.md R180). -/
def errNumber (c : ErrCode) : BitVec 4 :=
  match c with
  | .illegalCmd => 1#4
  | .range => 2#4
  | .precond => 3#4
  | .busy => 4#4
  | .access => 5#4

/-- STATUS.BUSY (10_state.md R23, R34). -/
def State.isBusy (s : State) : Bool :=
  match s.engine with
  | .idle => false
  | .busy _ => true

/-- STATUS.ERR, a live view (10_state.md R23). -/
def State.err (s : State) : Bool := s.errcode != 0#4

/-- The interrupt output and STATUS.IRQ, a level and a live view (60_exceptions.md R195). -/
def State.irq (s : State) : Bool :=
  (s.done && s.irqEn.getLsbD 0) || (s.err && s.irqEn.getLsbD 1)

/-- The STATUS register as a read gives it (45_host_access.md R250). -/
def State.status (s : State) : Word :=
  bitWord s.isBusy ||| (bitWord s.done <<< 1) ||| (bitWord s.err <<< 2) ||| (bitWord s.irq <<< 3)

/-- `raise Error(code)`, sticky-first, with no effect of its own but the record (60_exceptions.md R181). -/
def State.raise (c : ErrCode) (s : State) : State :=
  { s with errcode := if s.errcode == 0#4 then errNumber c else s.errcode }

/-- The fields of RESULT; those that a command's rule does not name stay 0 (10_state.md R25). -/
structure ResultBits where
  matched : Bool := false
  cls : BitVec 2 := 0#2
  syncOk : Bool := false
  modeOk : Bool := false
  rsvdOk : Bool := false
  candM1 : Bool := false
  candM2f1 : Bool := false
  candM2f2 : Bool := false
  pOk : Bool := false
  qOk : Bool := false
  deriving DecidableEq, Repr

/-- The 32 bits of RESULT from its fields (10_state.md R25). -/
def packResult (r : ResultBits) : Word :=
  bitWord r.matched ||| (r.cls.setWidth 32 <<< 1) ||| (bitWord r.syncOk <<< 3) ||| (bitWord r.modeOk <<< 4)
    ||| (bitWord r.rsvdOk <<< 5) ||| (bitWord r.candM1 <<< 6) ||| (bitWord r.candM2f1 <<< 7)
    ||| (bitWord r.candM2f2 <<< 8) ||| (bitWord r.pOk <<< 9) ||| (bitWord r.qOk <<< 10)

end Sys2Proof.Machine
end

