-- ==== Sys2Proof/Machine/Operands.lean ====
section
/-! DEFINITION. Operand forms: the byte lanes of a host access (20_memory.md R55), little-endian words of the buffer
(00_scope.md R10), and the operands of a command word (30_encoding.md R76, R78). -/

namespace Sys2Proof.Machine

/-- The `n` bytes of an access with data `v`, byte `j` the data bits `[8j+7:8j]` (20_memory.md R55). -/
def laneBytes (n : Nat) (v : Word) : List Byte :=
  (List.range n).map fun (j : Nat) => (v >>> (8 * j)).setWidth 8

/-- Bytes assembled little-endian, the first the least significant (20_memory.md R55). -/
def leWord (bs : List Byte) : Word :=
  bs.foldr (fun b acc => b.setWidth 32 ||| (acc <<< 8)) 0#32

/-- `LE32(k)` of a byte reading `B` (00_scope.md R10). -/
def le32 (B : Int → Byte) (k : Nat) : Word :=
  (B k).setWidth 32 ||| ((B (k + 1)).setWidth 32 <<< 8) ||| ((B (k + 2)).setWidth 32 <<< 16) ||| ((B (k + 3)).setWidth 32 <<< 24)

/-- The byte sequence `BUF[lo .. lo+n)` of a byte reading `B`. -/
def byteRange (B : Int → Byte) (lo n : Nat) : List Byte :=
  (List.range' lo n).map fun (k : Nat) => B k

/-- The OP field of a command word (30_encoding.md R76). -/
def opField (w : Word) : BitVec 4 := w.extractLsb' 0 4

/-- The ZA bit of a command word (30_encoding.md R76). -/
def zaField (w : Word) : Bool := w.getLsbD 4

/-- The VIEW bit of a command word (30_encoding.md R76). -/
def viewField (w : Word) : Bool := w.getLsbD 5

/-- The M1 bit of a command word (30_encoding.md R76). -/
def m1Field (w : Word) : Bool := w.getLsbD 6

/-- The view base of a VIEW bit, the only negative quantity of the block (30_encoding.md R78). -/
def viewBase (view : Bool) : Int := if view then -16 else 0

end Sys2Proof.Machine
end

