-- ==== Sys2Proof/Machine/Ops.lean ====
section
/-! DEFINITION. The named operations over the buffer and the registers: reads and writes of the buffer, the answer of a read, the
protected write, the issue, rejection and completion of a command, the record of a fault, and reset. The block takes no exception
and returns from none (60_exceptions.md R182, R197): recording an error (`State.raise`) and rejecting a command stand in their place. -/

namespace Sys2Proof.Machine

/-- The outcome of one instruction of the block. -/
abbrev Out := Host.Outcome State Fault Refusal

/-! ### The sector buffer -/

/-- `BUF[k]`, nothing where its written mark is clear (10_state.md R37). -/
def Memory.read (m : Memory) (k : Nat) : Option Byte :=
  match m with
  | [] => none
  | (a, b) :: rest => if a == k then some b else Memory.read rest k

/-- `BUF[k] <- b` with its written mark set (10_state.md R37), keeping the offsets strictly rising. -/
def Memory.write (m : Memory) (k : Nat) (b : Byte) : Memory :=
  match m with
  | [] => [(k, b)]
  | (a, c) :: rest =>
    if k < a then (k, b) :: (a, c) :: rest
    else if a == k then (k, b) :: rest
    else (a, c) :: Memory.write rest k b

/-- The bytes `bs` written from offset `k` upward (45_host_access.md R261). -/
def Memory.writeBytes (m : Memory) (k : Nat) (bs : List Byte) : Memory :=
  match bs with
  | [] => m
  | b :: rest => Memory.writeBytes (Memory.write m k b) (k + 1) rest

/-- Every offset listed is at least `lo` and below `BUF_SIZE`, in strictly rising order. -/
def Memory.wfFrom (lo : Nat) (m : Memory) : Bool :=
  match m with
  | [] => true
  | (a, _) :: rest => decide (lo ≤ a) && decide (a < Config.bufSize) && Memory.wfFrom (a + 1) rest

/-- The canonical form of the buffer: strictly rising offsets inside `[0, 2352)`. An offset not listed reads as nothing, so no entry
says what an unlisted offset says. -/
def Memory.wf (m : Memory) : Bool := Memory.wfFrom 0 m

/-- The buffer as a command reads it, byte by byte; the free value where no written byte stands (log entry 10). -/
def Memory.byteAt (m : Memory) (j : Int) : Byte :=
  match j with
  | .ofNat k => (Memory.read m k).getD (Config.unwrittenByte j)
  | .negSucc _ => Config.unwrittenByte j

/-- The first offset of a list whose written mark is clear; the lowest one when the list rises (10_state.md R37). -/
def Memory.firstUnwritten (m : Memory) (offsets : List Nat) : Option Nat :=
  offsets.find? fun k => (Memory.read m k).isNone

/-! ### Host accesses -/

/-- A host read returns `v`; nothing else changes (20_memory.md R59). -/
def State.answer (v : Word) (s : State) : State := { s with rdata := some v }

/-- A protected write: ignored with `Error(BUSY)` while BUSY, else the effect `f` (70_reset_and_hazards.md R222). -/
def State.protectedWrite (s : State) (f : State → State) : State :=
  match s.engine with
  | .busy _ => s.raise .busy
  | .idle => f s

/-- A buffer read of `n` bytes at `k` (45_host_access.md R260). -/
def readBuf (n k : Nat) (s : State) : Out :=
  match s.buf.firstUnwritten (List.range' k n) with
  | some j => .fault (.uninitRead j)
  | none => .next (s.answer (leWord ((List.range' k n).map fun (j : Nat) => s.buf.byteAt j)))

/-- A buffer write of `n` bytes at `k` (45_host_access.md R261). -/
def writeBuf (n k : Nat) (v : Word) (s : State) : State :=
  s.protectedWrite fun s => { s with buf := s.buf.writeBytes k (laneBytes n v) }

/-! ### Issue, rejection and completion of a command -/

/-- The part of rule R183's check that ECC_VERIFY makes: every offset of its read set (42_ecc.md R134) inside `[0, 2352)`, read at
the ends of its two areas (log entry 15). -/
def eccRangeOk (za view : Bool) (dest : Nat) : Bool :=
  decide (0 ≤ viewBase view + (if za then 16 else 12))
    && decide (viewBase view + 12 + 2236 ≤ Config.bufSize)
    && decide (dest + 276 ≤ Config.bufSize)

/-- The range check of a legal command word, on unbounded integers (60_exceptions.md R183). -/
def rangeOk (w : Word) (s : State) : Bool :=
  if opField w == 0x1#4 then decide (s.argOff.toNat + s.argLen.toNat ≤ Config.bufSize)
  else if opField w == 0x2#4 then decide (s.argOff.toNat + 4 ≤ Config.bufSize)
  else if opField w == 0x3#4 then eccRangeOk (zaField w) (viewField w) s.argOff.toNat
  else true

/-- The precondition of CLASSIFY with M1 = 1: at least 2352 bytes available (60_exceptions.md R190). -/
def precondOk (w : Word) (s : State) : Bool :=
  !(opField w == 0x6#4 && m1Field w && decide (s.avail.toNat < Config.mode1Size))

/-- Whether a command word is legal: the decoder takes it for a command (30_encoding.md R79, R81). -/
def isLegal (w : Word) : Bool :=
  match decodeCmd32 w with
  | .illegalCmd _ => false
  | _ => true

/-- `reject(code)` (60_exceptions.md R191). -/
def State.reject (c : ErrCode) (s : State) : State :=
  { s.raise c with result := 0#32, done := true }

/-- The acceptance of word `w`: BUSY, with its operands latched (60_exceptions.md R190). -/
def State.accept (w : Word) (s : State) : State :=
  { s with engine := .busy ⟨w, s.argOff, s.argLen, s.avail, s.edcAcc⟩ }

/-- The start of an issue: CMD takes the word, DONE is cleared (60_exceptions.md R190). -/
def State.latchCmd (w : Word) (s : State) : State := { s with cmd := w, done := false }

/-- The issue protocol of word `w` at PHASE = IDLE (60_exceptions.md R190), its checks in the order of R184. -/
def issue (w : Word) (s : State) : State :=
  if !isLegal w then (s.latchCmd w).reject .illegalCmd
  else if !rangeOk w s then (s.latchCmd w).reject .range
  else if !precondOk w s then (s.latchCmd w).reject .precond
  else (s.latchCmd w).accept w

/-- The end of a completion: RESULT written whole, PHASE idle, DONE set (10_state.md R25, R34). -/
def State.complete (r : ResultBits) (s : State) : State :=
  { s with result := packResult r, engine := .idle, done := true }

/-- The engine's step on a command with read footprint `offsets`: the fault at the lowest unwritten byte of the footprint, else the
whole effect `t` at once (10_state.md R34, R37). -/
def completeIfWritten (offsets : List Nat) (t : State) (s : State) : Out :=
  match s.buf.firstUnwritten offsets with
  | some k => .fault (.uninitRead k)
  | none => .next t

/-- The two steps of a command with word `w`: its issue while IDLE, and while BUSY its completion on the pending operands, `run`
(log entry 1). -/
def commandStep (w : Word) (run : Pending → Out) (s : State) : Out :=
  match s.engine with
  | .idle => .next (issue w s)
  | .busy p => run p

/-! ### Fault record and reset -/

/-- The fault record set: the resting state of a run that faulted at `k` (10_state.md R40). -/
def State.recordFault (k : Nat) (s : State) : State := { s with fault := some k }

/-- The reset event: every piece of state at its reset value, a pending command discarded (70_reset_and_hazards.md R210). The steps
still to come stay (log entry 9). -/
def State.applyReset (s : State) : State := { State.reset with inputs := s.inputs }

end Sys2Proof.Machine
end

