-- ==== Sys2Proof/Machine/Tables.lean ====
section
/-! DEFINITION. The three constant lookup tables (40_tables.md R100 to R103) and their bytes in the host window (20_memory.md R52). -/

namespace Sys2Proof.Machine

/-- One reflected shift step of rule R100. -/
def edcShift (c : Word) : Word :=
  (c >>> 1) ^^^ (if c.getLsbD 0 then Config.edcFeedback else 0#32)

/-- `n` shift steps. -/
def edcShifts (n : Nat) (c : Word) : Word :=
  match n with
  | 0 => c
  | m + 1 => edcShifts m (edcShift c)

/-- EDC_LUT (40_tables.md R100). -/
def edcLut (i : Byte) : Word := edcShifts 8 (i.setWidth 32)

/-- ECC_F, multiplication by 2 in GF(2^8) (40_tables.md R101). -/
def eccF (i : Byte) : Byte :=
  (i <<< 1) ^^^ (if i.getLsbD 7 then Config.eccGenerator else 0#8)

/-- A basis value where its bit of the index is set. -/
def eccBasis (j : Byte) (bit : Nat) (value : Byte) : Byte :=
  if j.getLsbD bit then value else 0#8

/-- ECC_B, division by 3 in GF(2^8), as the linear map of its eight basis values; rule R102's `ECC_B[i ^ ECC_F[i]] = i` holds of
it and of no other map (log entry 14; `eccB_spec` in Sys2Proof/Laws/Tables.lean). -/
def eccB (j : Byte) : Byte :=
  eccBasis j 0 0xF4#8 ^^^ eccBasis j 1 0xF5#8 ^^^ eccBasis j 2 0xF7#8 ^^^ eccBasis j 3 0xF3#8
    ^^^ eccBasis j 4 0xFB#8 ^^^ eccBasis j 5 0xEB#8 ^^^ eccBasis j 6 0xCB#8 ^^^ eccBasis j 7 0x8B#8

/-- The table byte at a window offset `0x400 ≤ off < 0xA00` (20_memory.md R51, R52). -/
def tableByte (off : Nat) : Byte :=
  if off < 0x800 then
    (edcLut (BitVec.ofNat 8 ((off - 0x400) / 4)) >>> (8 * ((off - 0x400) % 4))).setWidth 8
  else if off < 0x900 then eccF (BitVec.ofNat 8 (off - 0x800))
  else eccB (BitVec.ofNat 8 (off - 0x900))

end Sys2Proof.Machine
end

