-- ==== Sys2Proof/Machine/Ecc.lean ====
section
/-! DEFINITION. The P/Q parity verifier (42_ecc.md). A byte reading `B` gives the buffer byte at an offset; `vb` is the view base,
`za` the zero-address flag and `dest` the offset of the stored parity. -/

namespace Sys2Proof.Machine

/-- `Z(j)`: the buffer through the view, its address field zero in zero-address mode (42_ecc.md R130). -/
def viewByte (B : Int → Byte) (vb : Int) (za : Bool) (j : Int) : Byte :=
  if za && decide (vb + 12 ≤ j) && decide (j ≤ vb + 15) then 0#8 else B j

/-- The start index of a major group (42_ecc.md R131). -/
def eccStart (g : Geometry) (major : Nat) : Nat := (major / 2) * g.majorMult + major % 2

/-- The next index of a major group, cyclic in the block (42_ecc.md R131). -/
def eccNext (g : Geometry) (index : Nat) : Nat :=
  if index + g.minorInc ≥ g.majorCount * g.minorCount then index + g.minorInc - g.majorCount * g.minorCount
  else index + g.minorInc

/-- The first `n` indices of a walk from `index` (42_ecc.md R131). -/
def eccIndices (g : Geometry) (n index : Nat) : List Nat :=
  match n with
  | 0 => []
  | m + 1 => index :: eccIndices g m (eccNext g index)

/-- The accumulators `a` and `b` after the data bytes of a group (42_ecc.md R131). -/
def eccFold (a b : Byte) (data : List Byte) : Byte × Byte :=
  match data with
  | [] => (a, b)
  | t :: rest => eccFold (eccF (a ^^^ t)) (b ^^^ t) rest

/-- The two parity bytes of a major group with data bytes `data`: `a` and `a ^ b` (42_ecc.md R131). -/
def eccParity (data : List Byte) : Byte × Byte :=
  let r := eccFold 0#8 0#8 data
  let a := eccB (eccF r.1 ^^^ r.2)
  (a, a ^^^ r.2)

/-- The data bytes of a major group, in the order of rule R131. -/
def eccGroupData (B : Int → Byte) (vb : Int) (za : Bool) (g : Geometry) (major : Nat) : List Byte :=
  (eccIndices g g.minorCount (eccStart g major)).map fun (i : Nat) => viewByte B vb za (vb + 12 + i)

/-- One major group verifies: its two stored bytes are its two parity bytes (42_ecc.md R131). -/
def eccGroupOk (B : Int → Byte) (vb : Int) (za : Bool) (g : Geometry) (dest major : Nat) : Bool :=
  let p := eccParity (eccGroupData B vb za g major)
  viewByte B vb za (dest + major : Nat) == p.1 && viewByte B vb za (dest + major + g.majorCount : Nat) == p.2

/-- `EccBlock` (42_ecc.md R131): every major group in ascending order, up to the first mismatch. -/
def eccBlock (B : Int → Byte) (vb : Int) (za : Bool) (g : Geometry) (dest : Nat) : Bool :=
  (List.range g.majorCount).all fun (major : Nat) => eccGroupOk B vb za g dest major

/-- `EccVerify`: (p_ok, q_ok), Q not evaluated when P fails (42_ecc.md R132). -/
def eccVerify (B : Int → Byte) (vb : Int) (za : Bool) (dest : Nat) : Bool × Bool :=
  if eccBlock B vb za Config.pCode dest then (true, eccBlock B vb za Config.qCode (dest + 172))
  else (false, false)

/-- Membership in the read set `S` of ECC_VERIFY (42_ecc.md R134). -/
def inEccReadSet (vb : Int) (za : Bool) (dest : Nat) (j : Int) : Bool :=
  ((decide (vb + 12 ≤ j) && decide (j < vb + 12 + 2236)) || (decide ((dest : Int) ≤ j) && decide (j < dest + 276)))
    && !(za && decide (vb + 12 ≤ j) && decide (j ≤ vb + 15))

/-- The read set as rising buffer offsets: the read footprint of ECC_VERIFY (42_ecc.md R134). -/
def eccFootprint (vb : Int) (za : Bool) (dest : Nat) : List Nat :=
  (List.range Config.bufSize).filter fun (j : Nat) => inEccReadSet vb za dest j

/-- ECC_VERIFY: verify the stored P and Q parity (42_ecc.md R134). -/
def execEccVerify (za view : Bool) (s : State) : Out :=
  commandStep (cmdWord 3#4 za view false) (fun p =>
    let r := eccVerify s.buf.byteAt (viewBase view) za p.off.toNat
    completeIfWritten (eccFootprint (viewBase view) za p.off.toNat)
      (State.complete { matched := r.2, pOk := r.1, qOk := r.2 } s) s) s

end Sys2Proof.Machine
end

