-- ==== Sys2Proof/Machine/Edc.lean ====
section
/-! DEFINITION. The EDC engine (41_edc.md): the step, the update, EDC_BLOCK, EDC_COMPARE and the EDC_DATA port. -/

namespace Sys2Proof.Machine

/-- `EdcStep` (41_edc.md R110). -/
def edcStep (acc : Word) (b : Byte) : Word :=
  (acc >>> 8) ^^^ edcLut ((acc ^^^ b.setWidth 32).setWidth 8)

/-- `EdcUpdate` (41_edc.md R111). -/
def edcUpdate (acc : Word) (bs : List Byte) : Word :=
  match bs with
  | [] => acc
  | b :: rest => edcUpdate (edcStep acc b) rest

/-- EDC_BLOCK: fold the buffer range into EDC_ACC (41_edc.md R114). -/
def execEdcBlock (s : State) : Out :=
  commandStep (cmdWord 1#4 false false false) (fun p =>
    completeIfWritten (List.range' p.off.toNat p.len.toNat)
      (State.complete {} { s with edcAcc := edcUpdate p.acc (byteRange s.buf.byteAt p.off.toNat p.len.toNat) }) s) s

/-- EDC_COMPARE: compare EDC_ACC with a stored little-endian EDC (41_edc.md R115). -/
def execEdcCompare (s : State) : Out :=
  commandStep (cmdWord 2#4 false false false) (fun p =>
    completeIfWritten (List.range' p.off.toNat 4)
      (State.complete { matched := p.acc == le32 s.buf.byteAt p.off.toNat } s) s) s

/-- The EDC_DATA port: the `n` bytes of the data folded into EDC_ACC at once, lowest lane first (41_edc.md R113). -/
def foldEdcData (n : Nat) (v : Word) (s : State) : State :=
  s.protectedWrite fun s => { s with edcAcc := edcUpdate s.edcAcc (laneBytes n v) }

/-- `wr8 EDC_DATA` (41_edc.md R113). -/
def execWr8EdcData (v : Byte) (s : State) : Out := .next (foldEdcData 1 (v.setWidth 32) s)

/-- `wr16 EDC_DATA` (41_edc.md R113). -/
def execWr16EdcData (v : BitVec 16) (s : State) : Out := .next (foldEdcData 2 (v.setWidth 32) s)

/-- `wr32 EDC_DATA` (41_edc.md R113). -/
def execWr32EdcData (v : Word) (s : State) : Out := .next (foldEdcData 4 v s)

end Sys2Proof.Machine
end

