-- ==== Sys2Proof/Machine/Sync.lean ====
section
/-! DEFINITION. The sync pattern detector and the subheader check (43_sync_subheader.md), on a byte reading `B`. -/

namespace Sys2Proof.Machine

/-- The sync pattern (43_sync_subheader.md R150). -/
def syncPattern : List Byte :=
  [0x00#8, 0xFF#8, 0xFF#8, 0xFF#8, 0xFF#8, 0xFF#8, 0xFF#8, 0xFF#8, 0xFF#8, 0xFF#8, 0xFF#8, 0x00#8]

/-- `sync_ok` of HdrCheck (43_sync_subheader.md R151). -/
def syncOk (B : Int → Byte) : Bool := byteRange B 0x000 12 == syncPattern

/-- `mode_ok` of HdrCheck (43_sync_subheader.md R151). -/
def modeOk (B : Int → Byte) : Bool := B 0x00F == 0x01#8

/-- `rsvd_ok` of HdrCheck (43_sync_subheader.md R151). -/
def rsvdOk (B : Int → Byte) : Bool := (byteRange B 0x814 8).all (· == 0x00#8)

/-- Mode-1 candidacy: all three parts of HdrCheck (43_sync_subheader.md R151). -/
def hdrOk (B : Int → Byte) : Bool := syncOk B && modeOk B && rsvdOk B

/-- `SubCheck` (43_sync_subheader.md R154). -/
def subCheck (B : Int → Byte) : Bool := B 0 == B 4 && B 1 == B 5 && B 2 == B 6 && B 3 == B 7

/-- The read footprint of SYNC_DETECT (43_sync_subheader.md R152). -/
def syncFootprint : List Nat := List.range' 0x000 12 ++ [0x00F] ++ List.range' 0x814 8

/-- SYNC_DETECT (43_sync_subheader.md R152). -/
def execSyncDetect (s : State) : Out :=
  commandStep (cmdWord 4#4 false false false) (fun _ =>
    completeIfWritten syncFootprint
      (State.complete { matched := hdrOk s.buf.byteAt, syncOk := syncOk s.buf.byteAt,
                        modeOk := modeOk s.buf.byteAt, rsvdOk := rsvdOk s.buf.byteAt } s) s) s

/-- SUBHDR_CHECK (43_sync_subheader.md R153). -/
def execSubhdrCheck (s : State) : Out :=
  commandStep (cmdWord 5#4 false false false) (fun _ =>
    completeIfWritten (List.range' 0x000 8) (State.complete { matched := subCheck s.buf.byteAt } s) s) s

end Sys2Proof.Machine
end

