-- ==== Sys2Proof/Machine/Classify.lean ====
section
/-! DEFINITION. The sector classifier, NOP and the illegal command word (44_classify.md, 30_encoding.md R79). -/

namespace Sys2Proof.Machine

/-- The result of the classifier (00_scope.md R12). -/
inductive SectorClass where
  | literal
  | mode1
  | mode2Form1
  | mode2Form2
  deriving DecidableEq, Repr

/-- The type tag of a class (00_scope.md R12). -/
def classTag (c : SectorClass) : BitVec 2 :=
  match c with
  | .literal => 0#2
  | .mode1 => 1#2
  | .mode2Form1 => 2#2
  | .mode2Form2 => 3#2

/-- The class and the surviving candidates Mode1, Mode2Form1, Mode2Form2 (44_classify.md R161). -/
structure Verdict where
  cls : SectorClass
  c1 : Bool
  c2 : Bool
  c3 : Bool
  deriving DecidableEq, Repr

/-- Step 7 of the cascade: Mode1, then Mode2Form1, then Mode2Form2, then Literal (44_classify.md R161). -/
def priorityClass (c1 c2 c3 : Bool) : SectorClass :=
  if c1 then .mode1 else if c2 then .mode2Form1 else if c3 then .mode2Form2 else .literal

/-- Steps 4 to 7 of the cascade from the candidates that steps 2 and 3 leave (44_classify.md R161). -/
def classifyRegions (B : Int → Byte) (c1 c2 c3 : Bool) : Verdict :=
  let e := edcUpdate 0#32 (byteRange B 0x000 0x808)
  let c2 := c2 && e == le32 B 0x808
  let e := edcUpdate e (byteRange B 0x808 8)
  let c1 := c1 && e == le32 B 0x810
  let e := edcUpdate e (byteRange B 0x810 0x10C)
  let c3 := c3 && e == le32 B 0x91C
  let c1 := c1 && eccVerify B 0 false 0x81C == (true, true)
  let c2 := c2 && eccVerify B (-16) true 0x80C == (true, true)
  ⟨priorityClass c1 c2 c3, c1, c2, c3⟩

/-- `Classify` (44_classify.md R161), its short-circuits kept. -/
def classify (B : Int → Byte) (avail : Nat) (m1 : Bool) : Verdict :=
  if avail < Config.mode2Size then ⟨.literal, false, false, false⟩
  else
    let c1 := m1 && hdrOk B
    if subCheck B then classifyRegions B c1 true true
    else if c1 then classifyRegions B c1 false false
    else ⟨.literal, false, false, false⟩

/-- The read footprint of CLASSIFY (44_classify.md R162). -/
def classifyFootprint (avail : Nat) (m1 : Bool) : List Nat :=
  if avail < Config.mode2Size then []
  else if m1 then List.range Config.mode1Size
  else List.range Config.mode2Size

/-- CLASSIFY (44_classify.md R162). -/
def execClassify (m1 : Bool) (s : State) : Out :=
  commandStep (cmdWord 6#4 false false m1) (fun p =>
    let v := classify s.buf.byteAt p.avail.toNat m1
    completeIfWritten (classifyFootprint p.avail.toNat m1)
      (State.complete { matched := v.cls != .literal, cls := classTag v.cls,
                        candM1 := v.c1, candM2f1 := v.c2, candM2f2 := v.c3 } s) s) s

/-- NOP (44_classify.md R165). -/
def execNop (s : State) : Out :=
  commandStep (cmdWord 0#4 false false false) (fun _ => .next (State.complete {} s)) s

/-- An illegal command word: rejected at its issue, ignored while BUSY (30_encoding.md R79, 60_exceptions.md R184, R191). It never
becomes pending, so it has no completion (log entry 11). -/
def execIllegalCmd (w : Word) (s : State) : Out :=
  commandStep w (fun _ => .next (s.raise .busy)) s

end Sys2Proof.Machine
end

