-- ==== Sys2Proof/Machine/HostRead.lean ====
section
/-! DEFINITION. The host's reads (45_host_access.md R250, R259, R260): each returns its value and changes nothing else. -/

namespace Sys2Proof.Machine

/-- `rd32 ID` (45_host_access.md R250). -/
def execRd32Id (s : State) : Out := .next (s.answer Config.idValue)

/-- `rd32 CMD`: the stored word, reserved bits included (45_host_access.md R250, 10_state.md R22). -/
def execRd32Cmd (s : State) : Out := .next (s.answer s.cmd)

/-- `rd32 STATUS` (45_host_access.md R250). -/
def execRd32Status (s : State) : Out := .next (s.answer s.status)

/-- `rd32 ERRCODE` (45_host_access.md R250). -/
def execRd32Errcode (s : State) : Out := .next (s.answer (s.errcode.setWidth 32))

/-- `rd32 RESULT` (45_host_access.md R250). -/
def execRd32Result (s : State) : Out := .next (s.answer s.result)

/-- `rd32 EDC_ACC`: while BUSY the value before the command (45_host_access.md R250, 10_state.md R34). -/
def execRd32EdcAcc (s : State) : Out := .next (s.answer s.edcAcc)

/-- `rd32 EDC_DATA`: the port reads as 0 (45_host_access.md R250, 10_state.md R27). -/
def execRd32EdcData (s : State) : Out := .next (s.answer 0#32)

/-- `rd32 ARG_OFF` (45_host_access.md R250). -/
def execRd32ArgOff (s : State) : Out := .next (s.answer s.argOff)

/-- `rd32 ARG_LEN` (45_host_access.md R250). -/
def execRd32ArgLen (s : State) : Out := .next (s.answer s.argLen)

/-- `rd32 AVAIL` (45_host_access.md R250). -/
def execRd32Avail (s : State) : Out := .next (s.answer s.avail)

/-- `rd32 IRQ_EN` (45_host_access.md R250). -/
def execRd32IrqEn (s : State) : Out := .next (s.answer (s.irqEn.setWidth 32))

/-- `rd8 EDC_DATA` (45_host_access.md R250, 10_state.md R27). -/
def execRd8EdcData (s : State) : Out := .next (s.answer 0#32)

/-- `rd16 EDC_DATA` (45_host_access.md R250, 10_state.md R27). -/
def execRd16EdcData (s : State) : Out := .next (s.answer 0#32)

/-- A table read of `n` bytes at window offset `off`, little-endian (45_host_access.md R259). -/
def readTable (n off : Nat) (s : State) : Out :=
  .next (s.answer (leWord ((List.range' off n).map tableByte)))

/-- `rd8` of a table (45_host_access.md R259). -/
def execRd8Table (off : BitVec 13) (s : State) : Out := readTable 1 off.toNat s

/-- `rd16` of a table (45_host_access.md R259). -/
def execRd16Table (off : BitVec 13) (s : State) : Out := readTable 2 off.toNat s

/-- `rd32` of a table (45_host_access.md R259). -/
def execRd32Table (off : BitVec 13) (s : State) : Out := readTable 4 off.toNat s

/-- `rd8 BUF+k` (45_host_access.md R260). -/
def execRd8Buf (k : BitVec 12) (s : State) : Out := readBuf 1 k.toNat s

/-- `rd16 BUF+k` (45_host_access.md R260). -/
def execRd16Buf (k : BitVec 12) (s : State) : Out := readBuf 2 k.toNat s

/-- `rd32 BUF+k` (45_host_access.md R260). -/
def execRd32Buf (k : BitVec 12) (s : State) : Out := readBuf 4 k.toNat s

end Sys2Proof.Machine
end

