-- ==== Sys2Proof/Machine/HostWrite.lean ====
section
/-! DEFINITION. The host's writes (45_host_access.md R251 to R258, R261) and the illegal access (R262). -/

namespace Sys2Proof.Machine

/-- `wr32 CMD`: the issue protocol, or ignored with `Error(BUSY)` (45_host_access.md R251). -/
def execWr32Cmd (v : Word) (s : State) : Out := .next (s.protectedWrite (issue v))

/-- `wr32 STATUS`: bit 1 clears DONE, in every phase (45_host_access.md R252). -/
def execWr32Status (v : Word) (s : State) : Out :=
  .next { s with done := s.done && !v.getLsbD 1 }

/-- `wr32 ERRCODE`: any value clears it, in every phase (45_host_access.md R253). -/
def execWr32Errcode (_v : Word) (s : State) : Out := .next { s with errcode := 0#4 }

/-- `wr32 EDC_ACC` (45_host_access.md R254). -/
def execWr32EdcAcc (v : Word) (s : State) : Out := .next (s.protectedWrite fun s => { s with edcAcc := v })

/-- `wr32 ARG_OFF` (45_host_access.md R255). -/
def execWr32ArgOff (v : Word) (s : State) : Out := .next (s.protectedWrite fun s => { s with argOff := v })

/-- `wr32 ARG_LEN` (45_host_access.md R256). -/
def execWr32ArgLen (v : Word) (s : State) : Out := .next (s.protectedWrite fun s => { s with argLen := v })

/-- `wr32 AVAIL` (45_host_access.md R257). -/
def execWr32Avail (v : Word) (s : State) : Out := .next (s.protectedWrite fun s => { s with avail := v })

/-- `wr32 IRQ_EN`: its two bits, in every phase (45_host_access.md R258). -/
def execWr32IrqEn (v : Word) (s : State) : Out := .next { s with irqEn := v.setWidth 2 }

/-- `wr8 BUF+k` (45_host_access.md R261). -/
def execWr8Buf (k : BitVec 12) (v : Byte) (s : State) : Out := .next (writeBuf 1 k.toNat (v.setWidth 32) s)

/-- `wr16 BUF+k` (45_host_access.md R261). -/
def execWr16Buf (k : BitVec 12) (v : BitVec 16) (s : State) : Out := .next (writeBuf 2 k.toNat (v.setWidth 32) s)

/-- `wr32 BUF+k` (45_host_access.md R261). -/
def execWr32Buf (k : BitVec 12) (v : Word) (s : State) : Out := .next (writeBuf 4 k.toNat v s)

/-- An illegal access: `Error(ACCESS)`, and 0 to a read; in every phase, before the BUSY check (45_host_access.md R262). -/
def execIllegalAccess (d : Descriptor) (s : State) : Out :=
  .next (if d.getLsbD 15 then s.raise .access else (s.raise .access).answer 0#32)

end Sys2Proof.Machine
end

