-- ==== Sys2Proof/Machine/Dispatch.lean ====
section
/-! DEFINITION. One arm for each instruction: its meaning. -/

namespace Sys2Proof.Machine

/-- The meaning of one instruction. -/
def exec (i : Instr) (s : State) : Host.Outcome State Fault Refusal :=
  match i with
  | .nop => Sys2Proof.Machine.execNop s
  | .edcBlock => Sys2Proof.Machine.execEdcBlock s
  | .edcCompare => Sys2Proof.Machine.execEdcCompare s
  | .eccVerify za view => Sys2Proof.Machine.execEccVerify za view s
  | .syncDetect => Sys2Proof.Machine.execSyncDetect s
  | .subhdrCheck => Sys2Proof.Machine.execSubhdrCheck s
  | .classify m1 => Sys2Proof.Machine.execClassify m1 s
  | .illegalCmd w => Sys2Proof.Machine.execIllegalCmd w s
  | .rd32Id => Sys2Proof.Machine.execRd32Id s
  | .rd32Cmd => Sys2Proof.Machine.execRd32Cmd s
  | .rd32Status => Sys2Proof.Machine.execRd32Status s
  | .rd32Errcode => Sys2Proof.Machine.execRd32Errcode s
  | .rd32Result => Sys2Proof.Machine.execRd32Result s
  | .rd32EdcAcc => Sys2Proof.Machine.execRd32EdcAcc s
  | .rd32EdcData => Sys2Proof.Machine.execRd32EdcData s
  | .rd32ArgOff => Sys2Proof.Machine.execRd32ArgOff s
  | .rd32ArgLen => Sys2Proof.Machine.execRd32ArgLen s
  | .rd32Avail => Sys2Proof.Machine.execRd32Avail s
  | .rd32IrqEn => Sys2Proof.Machine.execRd32IrqEn s
  | .rd8EdcData => Sys2Proof.Machine.execRd8EdcData s
  | .rd16EdcData => Sys2Proof.Machine.execRd16EdcData s
  | .wr32Cmd v => Sys2Proof.Machine.execWr32Cmd v s
  | .wr32Status v => Sys2Proof.Machine.execWr32Status v s
  | .wr32Errcode v => Sys2Proof.Machine.execWr32Errcode v s
  | .wr32EdcAcc v => Sys2Proof.Machine.execWr32EdcAcc v s
  | .wr32ArgOff v => Sys2Proof.Machine.execWr32ArgOff v s
  | .wr32ArgLen v => Sys2Proof.Machine.execWr32ArgLen v s
  | .wr32Avail v => Sys2Proof.Machine.execWr32Avail v s
  | .wr32IrqEn v => Sys2Proof.Machine.execWr32IrqEn v s
  | .wr8EdcData v => Sys2Proof.Machine.execWr8EdcData v s
  | .wr16EdcData v => Sys2Proof.Machine.execWr16EdcData v s
  | .wr32EdcData v => Sys2Proof.Machine.execWr32EdcData v s
  | .rd8Table off => Sys2Proof.Machine.execRd8Table off s
  | .rd16Table off => Sys2Proof.Machine.execRd16Table off s
  | .rd32Table off => Sys2Proof.Machine.execRd32Table off s
  | .rd8Buf k => Sys2Proof.Machine.execRd8Buf k s
  | .rd16Buf k => Sys2Proof.Machine.execRd16Buf k s
  | .rd32Buf k => Sys2Proof.Machine.execRd32Buf k s
  | .wr8Buf k v => Sys2Proof.Machine.execWr8Buf k v s
  | .wr16Buf k v => Sys2Proof.Machine.execWr16Buf k v s
  | .wr32Buf k v => Sys2Proof.Machine.execWr32Buf k v s
  | .illegalAccess d => Sys2Proof.Machine.execIllegalAccess d s

end Sys2Proof.Machine
end

