-- ==== Sys2Proof/Machine/Fetch.lean ====
section
/-! DEFINITION. What the next step runs: the block fetches no instructions (10_state.md R33), so the next instruction is the host's next
access or, in a turn of the engine, the pending command. -/

namespace Sys2Proof.Machine

/-- What the next step does: run an instruction at a state, rest in a state, or nothing at all after a fault at `k`. -/
inductive Fetched where
  | run (i : Instr) (s : State)
  | rest (s : State)
  | stopped (k : Nat)
  deriving DecidableEq, Repr

/-- A turn of the engine: the completion of the pending command; nothing while IDLE, where the engine's step is not enabled
(10_state.md R34; log entry 4). -/
def engineTurn (s : State) : Fetched :=
  match s.engine with
  | .idle => .rest s
  | .busy p => .run (decode (.cmd32 p.word)) s

/-- The next step of state `s`: none after a recorded fault (10_state.md R40); else the head of the steps still to come, taken off
their list; else, with none left, a turn of the engine (70_reset_and_hazards.md R221; log entry 3). -/
def fetch (s : State) : Fetched :=
  match s.fault with
  | some k => .stopped k
  | none =>
    match s.inputs with
    | [] => engineTurn s
    | .access d v :: later => .run (decode (.acc16 d v)) { s with inputs := later }
    | .engine :: later => engineTurn { s with inputs := later }
    | .reset :: later => .rest (State.applyReset { s with inputs := later })

/-- The descriptor of `wr32 CMD` (45_host_access.md R251). -/
def cmdWriteDescriptor : Descriptor := 0xC004#16

/-- `s` with an arriving instruction placed where the next step takes it: a host access at the head of the steps to come; a command
word as the host's write of it to CMD while IDLE, and in the pending command's place while BUSY (log entry 8). -/
def placeWire (x : Wire) (s : State) : State :=
  match x with
  | .acc16 d v => { s with inputs := .access d v :: s.inputs }
  | .cmd32 w =>
    match s.engine with
    | .idle => { s with inputs := .access cmdWriteDescriptor w :: s.inputs }
    | .busy p => { s with engine := .busy { p with word := w }, inputs := .engine :: s.inputs }

/-- `placeWire` for the bits of an instruction as spec/opcode_table.json numbers them. -/
def placeTableWord (nbits w : Nat) (s : State) : State :=
  match tableWire nbits w with
  | none => s
  | some x => placeWire x s

end Sys2Proof.Machine
end

