-- ==== Sys2Proof/Machine/Step.lean ====
section
/-! DEFINITION. One step of the block. -/

namespace Sys2Proof.Machine

/-- One step in the total order of steps (20_memory.md R63). -/
def step (s : State) : Host.Outcome State Fault Refusal :=
  match fetch s with
  | .run i t => exec i t
  | .rest t => .next t
  | .stopped k => .fault (.uninitRead k)

/-- `s` with the instruction of bits `w` stored where `step` takes its next instruction. -/
def State.withFetchWord (s : State) (nbits w : Nat) : State := placeTableWord nbits w s

end Sys2Proof.Machine
end

