-- ==== Sys2Proof/Safety.lean ====
section
/-! DEFINITION. The terms in which claims about runs are made: the invariant that every step keeps, and a run that records its fault. -/

namespace Sys2Proof.Machine

/-- What holds in every state that a run from reset reaches. -/
structure Inv (s : State) : Prop where
  /-- The buffer is in canonical form (10_state.md R37). -/
  bufCanonical : s.buf.wf = true
  /-- The codes 6 to 15 are never produced (60_exceptions.md R180). -/
  errcodeProduced : s.errcode.toNat ≤ 5
  /-- RESULT[31:11] is 0 (10_state.md R25). -/
  resultReserved : s.result.toNat < 2048
  /-- The pending command is the snapshot of the live registers (10_state.md R34). -/
  pendingFrozen : ∀ p, s.engine = .busy p → p = ⟨s.cmd, s.argOff, s.argLen, s.avail, s.edcAcc⟩
  /-- The pending command passed every check of its issue (60_exceptions.md R190). -/
  pendingAccepted : ∀ p, s.engine = .busy p → isLegal p.word = true ∧ rangeOk p.word s = true ∧ precondOk p.word s = true
  /-- DONE is 0 while BUSY (45_host_access.md R252). -/
  doneClearWhileBusy : ∀ p, s.engine = .busy p → s.done = false

/-- The state that a step leaves behind: the next state, or the same state with its fault recorded (10_state.md R40). -/
def advance (s : State) : State :=
  match step s with
  | .next t => t
  | .fault (.uninitRead k) => s.recordFault k
  | .refused _ => s

/-- `n` steps with the fault recorded. -/
def advanceN (n : Nat) (s : State) : State :=
  match n with
  | 0 => s
  | m + 1 => advanceN m (advance s)

/-- Every offset of a list holds a written byte (10_state.md R37). -/
def Written (m : Memory) (offsets : List Nat) : Prop := ∀ k ∈ offsets, ∃ b, m.read k = some b

/-- The buffer holds the bytes of `B` at every offset of a list. -/
def Holds (m : Memory) (B : Int → Byte) (offsets : List Nat) : Prop := ∀ k ∈ offsets, m.read k = some (B k)

/-- `k` is the lowest offset of a list whose written mark is clear (10_state.md R37). -/
def LowestUnwritten (m : Memory) (offsets : List Nat) (k : Nat) : Prop :=
  k ∈ offsets ∧ m.read k = none ∧ ∀ j ∈ offsets, j < k → ∃ b, m.read j = some b

end Sys2Proof.Machine
end

