-- ==== Sys2Proof/Certificates/Slice0/Obligations.lean ====
section
/-! DEFINITION. The statements about the block, each taken from the rules of spec/. The words of namespace Claims say what the rules
say, in numbers and plain updates of State, and call none of the meanings. -/

namespace Sys2Proof.Claims

open Sys2Proof.Machine

/-- An access descriptor from its fields as numbers (30_encoding.md R75). -/
def descriptor (w sz off : Nat) : Descriptor := BitVec.ofNat 16 (w * 32768 + sz * 8192 + off)

/-- ERRCODE after `raise Error(code)` (60_exceptions.md R181). -/
def withError (code : BitVec 4) (s : State) : State :=
  { s with errcode := if s.errcode = 0#4 then code else s.errcode }

/-- A read returned `v` and changed nothing else. -/
def returned (v : Word) (s : State) : State := { s with rdata := some v }

/-- The state after a rejected command with word `w` (60_exceptions.md R190, R191). -/
def rejected (w : Word) (code : BitVec 4) (s : State) : State :=
  { s with cmd := w, errcode := (if s.errcode = 0#4 then code else s.errcode), result := 0#32, done := true }

/-- The state after an accepted command with word `w` (60_exceptions.md R190). -/
def accepted (w : Word) (s : State) : State :=
  { s with cmd := w, done := false, engine := .busy ⟨w, s.argOff, s.argLen, s.avail, s.edcAcc⟩ }

/-- The state after a completed command that changes only RESULT (10_state.md R34). -/
def completed (r : Word) (s : State) : State := { s with result := r, engine := .idle, done := true }

/-- STATUS from its four flags (10_state.md R23). -/
def statusWord (busy done err irq : Bool) : Word :=
  BitVec.ofNat 32 (busy.toNat + 2 * done.toNat + 4 * err.toNat + 8 * irq.toNat)

/-- BUSY read off PHASE (10_state.md R34). -/
def IsBusy (s : State) : Prop := ∃ p, s.engine = .busy p

/-- The legal command words of rule R79, on the bits of the word. -/
def LegalBits (w : Word) : Prop :=
  w.toNat / 128 = 0
    ∧ w.toNat % 16 ≤ 6
    ∧ (w.toNat / 16 % 4 = 0 ∨ w.toNat % 16 = 3)
    ∧ (w.toNat / 64 % 2 = 0 ∨ w.toNat % 16 = 6)

/-- The legal accesses of rule R57: `w` 1 for a write, `n` bytes at window offset `off`. -/
def LegalAccess (w n off : Nat) : Prop :=
  (off < 0x02C ∧ n = 4 ∧ off % 4 = 0 ∧ ¬ (w = 1 ∧ (off = 0x000 ∨ off = 0x010)))
    ∨ (off = 0x018 ∧ (n = 1 ∨ n = 2))
    ∨ (w = 0 ∧ 0x400 ≤ off ∧ off < 0xA00 ∧ off % n = 0)
    ∨ (0x1000 ≤ off ∧ off < 0x1930 ∧ off % n = 0)

/-- The view base of a VIEW bit (30_encoding.md R78). -/
def base (view : Bool) : Int := if view then -16 else 0

/-- The read set of ECC_VERIFY (42_ecc.md R134). -/
def InReadSet (vb : Int) (za : Bool) (dest : Nat) (j : Int) : Prop :=
  ((∃ i : Nat, i < 2236 ∧ j = vb + 12 + i) ∨ (∃ i : Nat, i < 276 ∧ j = dest + i))
    ∧ ¬ (za = true ∧ vb + 12 ≤ j ∧ j ≤ vb + 15)

/-- The range check of ECC_VERIFY (42_ecc.md R134). -/
def EccInRange (vb : Int) (za : Bool) (dest : Nat) : Prop := ∀ j, InReadSet vb za dest j → 0 ≤ j ∧ j < 2352

/-- The range check of a legal word at issue (60_exceptions.md R183). -/
def RangePasses (w : Word) (s : State) : Prop :=
  (w.toNat % 16 = 1 → s.argOff.toNat + s.argLen.toNat ≤ 2352)
    ∧ (w.toNat % 16 = 2 → s.argOff.toNat + 4 ≤ 2352)
    ∧ (w.toNat % 16 = 3 → EccInRange (base (w.getLsbD 5)) (w.getLsbD 4) s.argOff.toNat)

/-- The precondition of CLASSIFY at issue (60_exceptions.md R190). -/
def PrecondPasses (w : Word) (s : State) : Prop :=
  ¬ (w.toNat % 16 = 6 ∧ w.getLsbD 6 = true ∧ s.avail.toNat < 2352)

/-- Four bytes as a little-endian number (00_scope.md R10). -/
def leNat (b0 b1 b2 b3 : Byte) : Nat := b0.toNat + 256 * b1.toNat + 65536 * b2.toNat + 16777216 * b3.toNat

/-- The bytes `B lo`, …, `B (lo + n - 1)`. -/
def bytes (B : Int → Byte) (lo n : Nat) : List Byte := (List.range n).map fun (i : Nat) => B (lo + i : Nat)

/-- The stored EDC at offset `k` equals `e` (20_memory.md R56). -/
def StoredEdc (B : Int → Byte) (k : Nat) (e : Word) : Prop :=
  e.toNat = leNat (B k) (B (k + 1 : Nat)) (B (k + 2 : Nat)) (B (k + 3 : Nat))

/-- `sync_ok` (43_sync_subheader.md R151). -/
def SyncOk (B : Int → Byte) : Prop := B 0 = 0x00#8 ∧ (∀ k : Nat, 1 ≤ k → k ≤ 10 → B k = 0xFF#8) ∧ B 11 = 0x00#8

/-- `mode_ok` (43_sync_subheader.md R151). -/
def ModeOk (B : Int → Byte) : Prop := B 15 = 0x01#8

/-- `rsvd_ok` (43_sync_subheader.md R151). -/
def RsvdOk (B : Int → Byte) : Prop := ∀ k : Nat, 0x814 ≤ k → k ≤ 0x81B → B k = 0x00#8

/-- `SubCheck` (43_sync_subheader.md R154). -/
def SubOk (B : Int → Byte) : Prop := B 0 = B 4 ∧ B 1 = B 5 ∧ B 2 = B 6 ∧ B 3 = B 7

/-- The sum of a codeword in GF(2^8) (42_ecc.md R138). -/
def xorSum (v : List Byte) : Byte :=
  match v with
  | [] => 0#8
  | b :: rest => b ^^^ xorSum rest

/-- Multiplication by the power `α^n`, `α = 2` (42_ecc.md R138). -/
def alphaTimes (n : Nat) (v : Byte) : Byte :=
  match n with
  | 0 => v
  | m + 1 => alphaTimes m (eccF v)

/-- The weighted sum of a codeword, the last byte with weight `α^0` (42_ecc.md R138). -/
def weightedSum (v : List Byte) : Byte :=
  match v with
  | [] => 0#8
  | b :: rest => alphaTimes rest.length b ^^^ weightedSum rest

/-- A byte read through the view (42_ecc.md R130). -/
def zByte (B : Int → Byte) (vb : Int) (za : Bool) (j : Int) : Byte :=
  if za = true ∧ vb + 12 ≤ j ∧ j ≤ vb + 15 then 0#8 else B j

/-- The codeword of P major group `major` (42_ecc.md R138). -/
def pCodeword (B : Int → Byte) (vb : Int) (za : Bool) (dest major : Nat) : List Byte :=
  ((List.range 24).map fun (m : Nat) => zByte B vb za (vb + 12 + major + 86 * m))
    ++ [zByte B vb za (dest + major : Nat), zByte B vb za (dest + major + 86 : Nat)]

/-- The codeword of Q major group `major`: its data bytes in the cyclic order of rule R131 (42_ecc.md R138). -/
def qCodeword (B : Int → Byte) (vb : Int) (za : Bool) (dest major : Nat) : List Byte :=
  ((List.range 43).map fun (m : Nat) => zByte B vb za (vb + 12 + ((major / 2 * 86 + major % 2 + 88 * m) % 2236 : Nat)))
    ++ [zByte B vb za (dest + 172 + major : Nat), zByte B vb za (dest + 172 + major + 52 : Nat)]

/-- One reflected shift step (40_tables.md R100). -/
def shiftStep (c : Nat) : Nat := c / 2 ^^^ (if c % 2 = 1 then 0xD8018001 else 0)

/-- One EDC_DATA write of a feed: 1, 2 or 4 bytes with their data (41_edc.md R113). -/
inductive Feed where
  | one (v : Byte)
  | two (v : BitVec 16)
  | four (v : Word)
  deriving DecidableEq, Repr

/-- The access of one EDC_DATA write (41_edc.md R113). -/
def Feed.event (f : Feed) : Event :=
  match f with
  | .one v => .access 0x8018#16 (v.setWidth 32)
  | .two v => .access 0xA018#16 (v.setWidth 32)
  | .four v => .access 0xC018#16 v

/-- The bytes of one EDC_DATA write, in the order in which they are folded (41_edc.md R113). -/
def Feed.bytes (f : Feed) : List Byte :=
  match f with
  | .one v => [v]
  | .two v => [v.extractLsb' 0 8, v.extractLsb' 8 8]
  | .four v => [v.extractLsb' 0 8, v.extractLsb' 8 8, v.extractLsb' 16 8, v.extractLsb' 24 8]

end Sys2Proof.Claims

open Sys2Proof Sys2Proof.Machine Sys2Proof.Claims

/-! ### Encoding -/

/-- 30_encoding.md sections 4 and 5: the encoding of every well-formed instruction decodes to that instruction, every operand at every
value that the encoding admits. -/
def Obligations.DecodeEncodeRoundTrip : Prop :=
  ∀ i : Instr, WellFormed i = true → decode (encode i) = i

/-- 30_encoding.md R81, which the spec marks "[derived: from rule R79 and rule R80]": decoding is total, gives well-formed
instructions only, and drops no bit of a command word and no bit of a descriptor; a write keeps the data lanes of its size. -/
def Obligations.DecodeIsTotalAndKeepsEveryBit : Prop :=
  (∀ x : Wire, WellFormed (decode x) = true)
    ∧ (∀ w : Word, encode (decode (.cmd32 w)) = .cmd32 w)
    ∧ (∀ (d : Descriptor) (v : Word), ∃ u : Word, encode (decode (.acc16 d v)) = .acc16 d u)

/-- 30_encoding.md R79. -/
def Obligations.IllegalWordsAreThoseOfTheRule : Prop :=
  ∀ w : Word,
    (decode (.cmd32 w) ≠ .illegalCmd w ↔ LegalBits w)
      ∧ ∀ s : State, s.engine = .idle → ¬ LegalBits w → exec (.wr32Cmd w) s = .next (rejected w 1#4 s)

/-- 30_encoding.md R82, which the spec marks "[derived: from rule R79 and 42_ecc.md rule R134]": the eleven legal words and the
instruction of each. -/
def Obligations.LegalCommandWordsAreTheEleven : Prop :=
  ∀ w : Word, LegalBits w ↔
    (w, decode (.cmd32 w)) ∈
      [(0x00#32, Instr.nop), (0x01#32, .edcBlock), (0x02#32, .edcCompare), (0x03#32, .eccVerify false false),
       (0x13#32, .eccVerify true false), (0x23#32, .eccVerify false true), (0x33#32, .eccVerify true true),
       (0x04#32, .syncDetect), (0x05#32, .subhdrCheck), (0x06#32, .classify false), (0x46#32, .classify true)]

/-- 20_memory.md R57 and 30_encoding.md R80: which accesses are illegal, by direction, size and offset, and what an illegal one does. -/
def Obligations.IllegalAccessesAreThoseOfTheRule : Prop :=
  ∀ (w sz off : Nat) (v : Word), w < 2 → sz < 4 → off < 8192 →
    (decode (.acc16 (descriptor w sz off) v) = .illegalAccess (descriptor w sz off) ↔ ¬ (sz ≠ 3 ∧ LegalAccess w (2 ^ sz) off))
      ∧ (¬ (sz ≠ 3 ∧ LegalAccess w (2 ^ sz) off) → ∀ s : State,
          exec (decode (.acc16 (descriptor w sz off) v)) s
            = .next (if w = 0 then returned 0#32 (withError 5#4 s) else withError 5#4 s))

/-- A few words of 30_encoding.md R82 and R83 and the instructions that they stand for. -/
def Obligations.SampleWordsDecode : Prop :=
  decodeTableWord 32 0x00000033 = some (.eccVerify true true)
    ∧ decodeTableWord 32 0x00000046 = some (.classify true)
    ∧ decodeTableWord 32 0x00000080 = some (.illegalCmd 0x80#32)
    ∧ decodeTableWord 16 0x4008 = some .rd32Status
    ∧ decodeTableWord 16 0x2902 = some (.rd16Table 0x902#13)
    ∧ decodeTableWord 16 0x592C = some (.rd32Buf 0x92C#12)
    ∧ decodeTableWord 16 0x6000 = some (.illegalAccess 0x6000#16)
    ∧ decode (.acc16 0xA018#16 0x3231#32) = .wr16EdcData 0x3231#16
    ∧ decode (.acc16 0xB92E#16 0xAABB#32) = .wr16Buf 0x92E#12 0xAABB#16

/-! ### Steps -/

/-- 20_memory.md R63, 10_state.md R34 and 70_reset_and_hazards.md R221: a step runs the decoded instruction of the next host access,
or, in a turn of the engine, of the pending command; with no step left to come the turn is the engine's. That the steps to come
stand in a list is the model's choice (log entries 2, 3 and 4). -/
def Obligations.StepRunsTheDecodedInstruction : Prop :=
  ∀ s : State, s.fault = none →
    (∀ d v later, s.inputs = .access d v :: later →
        step s = exec (decode (.acc16 d v)) { s with inputs := later })
      ∧ (∀ p later, s.inputs = .engine :: later → s.engine = .busy p →
        step s = exec (decode (.cmd32 p.word)) { s with inputs := later })
      ∧ (∀ p, s.inputs = [] → s.engine = .busy p → step s = exec (decode (.cmd32 p.word)) s)
      ∧ (∀ later, s.inputs = .engine :: later → s.engine = .idle → step s = .next { s with inputs := later })
      ∧ (s.inputs = [] → s.engine = .idle → step s = .next s)

/-- The model's choice of log entry 8: the instruction that withFetchWord places is the one that the very next step runs; a command
word runs as its issue while IDLE and as its completion while BUSY. -/
def Obligations.WithFetchWordIsRunNext : Prop :=
  ∀ (s : State) (w : Nat), s.fault = none →
    step (s.withFetchWord 16 w) = exec (decodeAcc16 (BitVec.ofNat 16 w) 0#32) s
      ∧ (s.engine = .idle → step (s.withFetchWord 32 w) = exec (decodeCmd32 (BitVec.ofNat 32 w)) s)
      ∧ (∀ p, s.engine = .busy p →
          step (s.withFetchWord 32 w)
            = exec (decodeCmd32 (BitVec.ofNat 32 w)) { s with engine := .busy { p with word := BitVec.ofNat 32 w } })

/-- 30_encoding.md R75 and 45_host_access.md R251, joined by the model's choice of log entry 1: while IDLE a CMD write does what
the instruction of its data does, for every one of the 2^32 words. -/
def Obligations.CommandWriteIsItsCommand : Prop :=
  ∀ (w : Word) (s : State), s.engine = .idle → exec (.wr32Cmd w) s = exec (decode (.cmd32 w)) s

/-- 70_reset_and_hazards.md R210 with the values of 10_state.md R41: a reset at any step, from any state; a recorded fault
outlives it. -/
def Obligations.ResetEventGivesTheResetValues : Prop :=
  ∀ (s : State) (later : List Event), s.inputs = .reset :: later →
    (s.fault = none → ∃ t : State, step s = .next t
        ∧ t = { cmd := 0#32, done := false, errcode := 0#4, result := 0#32, edcAcc := 0#32, argOff := 0#32,
                argLen := 0#32, avail := 0#32, irqEn := 0#2, engine := .idle, buf := [], fault := none,
                rdata := t.rdata, inputs := t.inputs }
        ∧ t.status = 0#32 ∧ t.irq = false ∧ (∀ k, t.buf.read k = none) ∧ exec .rd32Id t = .next (returned 0x004D4345#32 t))
      ∧ (∀ k, s.fault = some k → step s = .fault (.uninitRead k))

/-- 10_state.md section 4 (R40) and 60_exceptions.md R193: a faulted run takes no further step, whatever was still to come, and the
record that a fault leaves carries its offset. That `advance` writes the record is the model's choice (log entry 7). -/
def Obligations.FaultedRunTakesNoStep : Prop :=
  ∀ (s : State) (k : Nat),
    (s.fault = some k → step s = .fault (.uninitRead k) ∧ advance s = s)
      ∧ (step s = .fault (.uninitRead k) → advance s = { s with fault := some k }
          ∧ ∀ n, advanceN n (advance s) = advance s)

/-! ### Reads -/

/-- 45_host_access.md R250: the register reads, in every phase, with their descriptors. -/
def Obligations.RegisterReadsReturnTheirValues : Prop :=
  (∀ (s : State) (busy : Bool), (busy = true ↔ IsBusy s) →
    exec .rd32Id s = .next (returned 0x004D4345#32 s)
      ∧ exec .rd32Cmd s = .next (returned s.cmd s)
      ∧ exec .rd32Status s = .next (returned (statusWord busy s.done (decide (s.errcode ≠ 0#4))
          (s.done && s.irqEn.getLsbD 0 || decide (s.errcode ≠ 0#4) && s.irqEn.getLsbD 1)) s)
      ∧ exec .rd32Errcode s = .next (returned (BitVec.ofNat 32 s.errcode.toNat) s)
      ∧ exec .rd32Result s = .next (returned s.result s)
      ∧ exec .rd32EdcAcc s = .next (returned s.edcAcc s)
      ∧ exec .rd32EdcData s = .next (returned 0#32 s)
      ∧ exec .rd8EdcData s = .next (returned 0#32 s)
      ∧ exec .rd16EdcData s = .next (returned 0#32 s)
      ∧ exec .rd32ArgOff s = .next (returned s.argOff s)
      ∧ exec .rd32ArgLen s = .next (returned s.argLen s)
      ∧ exec .rd32Avail s = .next (returned s.avail s)
      ∧ exec .rd32IrqEn s = .next (returned (BitVec.ofNat 32 s.irqEn.toNat) s))
    ∧ (∀ v : Word, decode (.acc16 0x4000#16 v) = .rd32Id ∧ decode (.acc16 0x4004#16 v) = .rd32Cmd
      ∧ decode (.acc16 0x4008#16 v) = .rd32Status ∧ decode (.acc16 0x400C#16 v) = .rd32Errcode
      ∧ decode (.acc16 0x4010#16 v) = .rd32Result ∧ decode (.acc16 0x4014#16 v) = .rd32EdcAcc
      ∧ decode (.acc16 0x4018#16 v) = .rd32EdcData ∧ decode (.acc16 0x401C#16 v) = .rd32ArgOff
      ∧ decode (.acc16 0x4020#16 v) = .rd32ArgLen ∧ decode (.acc16 0x4024#16 v) = .rd32Avail
      ∧ decode (.acc16 0x4028#16 v) = .rd32IrqEn ∧ decode (.acc16 0x0018#16 v) = .rd8EdcData
      ∧ decode (.acc16 0x2018#16 v) = .rd16EdcData)

/-- 45_host_access.md R259 with the window layout of 20_memory.md R52: every table read, in every state, by table, entry and part, and
their descriptors. -/
def Obligations.TableReadsReturnTheTables : Prop :=
  ∀ s : State,
    (∀ i : Nat, i < 256 →
      exec (.rd32Table (BitVec.ofNat 13 (0x400 + 4 * i))) s = .next (returned (edcLut (BitVec.ofNat 8 i)) s)
        ∧ (∀ h, h < 2 → exec (.rd16Table (BitVec.ofNat 13 (0x400 + 4 * i + 2 * h))) s
            = .next (returned (BitVec.ofNat 32 ((edcLut (BitVec.ofNat 8 i)).toNat / 65536 ^ h % 65536)) s))
        ∧ (∀ j, j < 4 → exec (.rd8Table (BitVec.ofNat 13 (0x400 + 4 * i + j))) s
            = .next (returned (BitVec.ofNat 32 ((edcLut (BitVec.ofNat 8 i)).toNat / 256 ^ j % 256)) s))
        ∧ exec (.rd8Table (BitVec.ofNat 13 (0x800 + i))) s
            = .next (returned (BitVec.ofNat 32 (eccF (BitVec.ofNat 8 i)).toNat) s)
        ∧ exec (.rd8Table (BitVec.ofNat 13 (0x900 + i))) s
            = .next (returned (BitVec.ofNat 32 (eccB (BitVec.ofNat 8 i)).toNat) s))
    ∧ (∀ i : Nat, i < 128 →
      exec (.rd16Table (BitVec.ofNat 13 (0x800 + 2 * i))) s
          = .next (returned (BitVec.ofNat 32 ((eccF (BitVec.ofNat 8 (2 * i))).toNat
              + 256 * (eccF (BitVec.ofNat 8 (2 * i + 1))).toNat)) s)
        ∧ exec (.rd16Table (BitVec.ofNat 13 (0x900 + 2 * i))) s
          = .next (returned (BitVec.ofNat 32 ((eccB (BitVec.ofNat 8 (2 * i))).toNat
              + 256 * (eccB (BitVec.ofNat 8 (2 * i + 1))).toNat)) s))
    ∧ (∀ i : Nat, i < 64 →
      exec (.rd32Table (BitVec.ofNat 13 (0x800 + 4 * i))) s
          = .next (returned (BitVec.ofNat 32 (leNat (eccF (BitVec.ofNat 8 (4 * i))) (eccF (BitVec.ofNat 8 (4 * i + 1)))
              (eccF (BitVec.ofNat 8 (4 * i + 2))) (eccF (BitVec.ofNat 8 (4 * i + 3))))) s)
        ∧ exec (.rd32Table (BitVec.ofNat 13 (0x900 + 4 * i))) s
          = .next (returned (BitVec.ofNat 32 (leNat (eccB (BitVec.ofNat 8 (4 * i))) (eccB (BitVec.ofNat 8 (4 * i + 1)))
              (eccB (BitVec.ofNat 8 (4 * i + 2))) (eccB (BitVec.ofNat 8 (4 * i + 3))))) s))
    ∧ (∀ (off : Nat) (v : Word), 0x400 ≤ off → off < 0xA00 →
      decode (.acc16 (descriptor 0 0 off) v) = .rd8Table (BitVec.ofNat 13 off)
        ∧ (off % 2 = 0 → decode (.acc16 (descriptor 0 1 off) v) = .rd16Table (BitVec.ofNat 13 off))
        ∧ (off % 4 = 0 → decode (.acc16 (descriptor 0 2 off) v) = .rd32Table (BitVec.ofNat 13 off)))

/-- 45_host_access.md R260: the buffer reads of 1, 2 and 4 bytes, in every phase, with their descriptors, and their fault. -/
def Obligations.BufferReadsReturnTheirBytes : Prop :=
  (∀ (k : Nat) (s : State), k < 2352 →
    (∀ b0, s.buf.read k = some b0 →
        exec (.rd8Buf (BitVec.ofNat 12 k)) s = .next (returned (BitVec.ofNat 32 b0.toNat) s))
      ∧ (∀ b0 b1, k % 2 = 0 → s.buf.read k = some b0 → s.buf.read (k + 1) = some b1 →
        exec (.rd16Buf (BitVec.ofNat 12 k)) s = .next (returned (BitVec.ofNat 32 (b0.toNat + 256 * b1.toNat)) s))
      ∧ (∀ b0 b1 b2 b3, k % 4 = 0 → s.buf.read k = some b0 → s.buf.read (k + 1) = some b1 →
        s.buf.read (k + 2) = some b2 → s.buf.read (k + 3) = some b3 →
        exec (.rd32Buf (BitVec.ofNat 12 k)) s = .next (returned (BitVec.ofNat 32 (leNat b0 b1 b2 b3)) s))
      ∧ (∀ j, LowestUnwritten s.buf [k] j → exec (.rd8Buf (BitVec.ofNat 12 k)) s = .fault (.uninitRead j))
      ∧ (∀ j, k % 2 = 0 → LowestUnwritten s.buf [k, k + 1] j →
        exec (.rd16Buf (BitVec.ofNat 12 k)) s = .fault (.uninitRead j))
      ∧ (∀ j, k % 4 = 0 → LowestUnwritten s.buf [k, k + 1, k + 2, k + 3] j →
        exec (.rd32Buf (BitVec.ofNat 12 k)) s = .fault (.uninitRead j)))
    ∧ (∀ (k : Nat) (v : Word), k < 2352 →
      decode (.acc16 (descriptor 0 0 (0x1000 + k)) v) = .rd8Buf (BitVec.ofNat 12 k)
        ∧ (k % 2 = 0 → decode (.acc16 (descriptor 0 1 (0x1000 + k)) v) = .rd16Buf (BitVec.ofNat 12 k))
        ∧ (k % 4 = 0 → decode (.acc16 (descriptor 0 2 (0x1000 + k)) v) = .rd32Buf (BitVec.ofNat 12 k)))

/-! ### Writes -/

/-- 45_host_access.md R252: bit 1 clears DONE, no other bit does anything, in every phase. -/
def Obligations.StatusWriteClearsDone : Prop :=
  ∀ (v : Word) (s : State), decode (.acc16 0xC008#16 v) = .wr32Status v
    ∧ exec (.wr32Status v) s = .next { s with done := if v.toNat / 2 % 2 = 1 then false else s.done }

/-- 45_host_access.md R253: any ERRCODE write clears it, in every phase, and nothing else; no other step but a reset clears a
recorded error. -/
def Obligations.ErrcodeWriteClearsTheError : Prop :=
  (∀ (v : Word) (s : State), decode (.acc16 0xC00C#16 v) = .wr32Errcode v
    ∧ ∃ t, exec (.wr32Errcode v) s = .next t ∧ t = { s with errcode := 0#4 } ∧ t.err = false)
    ∧ ∀ s t : State, step s = .next t → s.errcode ≠ 0#4 → t.errcode = 0#4 →
      (∃ v later, s.inputs = .access 0xC00C#16 v :: later) ∨ (∃ later, s.inputs = .reset :: later)

/-- 45_host_access.md R258: the two enable bits, in every phase; the interrupt follows at once. -/
def Obligations.IrqEnWriteSetsTheEnables : Prop :=
  ∀ (v : Word) (s : State), decode (.acc16 0xC028#16 v) = .wr32IrqEn v
    ∧ ∃ t, exec (.wr32IrqEn v) s = .next t ∧ t = { s with irqEn := BitVec.ofNat 2 (v.toNat % 4) }
      ∧ t.irq = (s.done && v.getLsbD 0 || s.errcode != 0#4 && v.getLsbD 1)

/-- 45_host_access.md R254 to R257: the writes of EDC_ACC, ARG_OFF, ARG_LEN and AVAIL, stored whole while IDLE and ignored with
`Error(BUSY)` while BUSY. -/
def Obligations.OperandWritesStoreOrAreIgnored : Prop :=
  ∀ (v : Word) (s : State),
    (decode (.acc16 0xC014#16 v) = .wr32EdcAcc v ∧ decode (.acc16 0xC01C#16 v) = .wr32ArgOff v
      ∧ decode (.acc16 0xC020#16 v) = .wr32ArgLen v ∧ decode (.acc16 0xC024#16 v) = .wr32Avail v)
    ∧ (s.engine = .idle →
      exec (.wr32EdcAcc v) s = .next { s with edcAcc := v } ∧ exec (.wr32ArgOff v) s = .next { s with argOff := v }
        ∧ exec (.wr32ArgLen v) s = .next { s with argLen := v } ∧ exec (.wr32Avail v) s = .next { s with avail := v })
    ∧ (IsBusy s →
      exec (.wr32EdcAcc v) s = .next (withError 4#4 s) ∧ exec (.wr32ArgOff v) s = .next (withError 4#4 s)
        ∧ exec (.wr32ArgLen v) s = .next (withError 4#4 s) ∧ exec (.wr32Avail v) s = .next (withError 4#4 s))

/-- 41_edc.md R113: the EDC_DATA port folds 1, 2 or 4 bytes, lowest lane first, at once; ignored with `Error(BUSY)` while BUSY; an
access at 0x019 to 0x01B, or with SZ = 3, is `Error(ACCESS)`. -/
def Obligations.EdcDataWriteFoldsItsBytes : Prop :=
  (∀ s : State, s.engine = .idle →
    (∀ v, exec (.wr8EdcData v) s = .next { s with edcAcc := edcStep s.edcAcc v })
      ∧ (∀ v, exec (.wr16EdcData v) s
          = .next { s with edcAcc := edcStep (edcStep s.edcAcc (v.extractLsb' 0 8)) (v.extractLsb' 8 8) })
      ∧ (∀ v, exec (.wr32EdcData v) s
          = .next { s with edcAcc := edcStep (edcStep (edcStep (edcStep s.edcAcc (v.extractLsb' 0 8)) (v.extractLsb' 8 8))
                                      (v.extractLsb' 16 8)) (v.extractLsb' 24 8) }))
    ∧ (∀ s : State, IsBusy s →
      (∀ v, exec (.wr8EdcData v) s = .next (withError 4#4 s)) ∧ (∀ v, exec (.wr16EdcData v) s = .next (withError 4#4 s))
        ∧ (∀ v, exec (.wr32EdcData v) s = .next (withError 4#4 s)))
    ∧ (∀ v : Word, decode (.acc16 0x8018#16 v) = .wr8EdcData (v.extractLsb' 0 8)
      ∧ decode (.acc16 0xA018#16 v) = .wr16EdcData (v.extractLsb' 0 16) ∧ decode (.acc16 0xC018#16 v) = .wr32EdcData v
      ∧ ∀ s : State, exec (decode (.acc16 0xE018#16 v)) s = .next (withError 5#4 s)
        ∧ exec (decode (.acc16 0x6018#16 v)) s = .next (returned 0#32 (withError 5#4 s))
        ∧ ∀ w sz off, w < 2 → sz < 4 → 0x019 ≤ off → off ≤ 0x01B →
          exec (decode (.acc16 (descriptor w sz off) v)) s
            = .next (if w = 0 then returned 0#32 (withError 5#4 s) else withError 5#4 s))

/-- 45_host_access.md R261: the buffer writes of 1, 2 and 4 bytes: the bytes they store, every other byte and all other state as
before; ignored with `Error(BUSY)` while BUSY. -/
def Obligations.BufferWritesStoreTheirBytes : Prop :=
  (∀ (k : Nat) (s : State), k < 2352 → s.engine = .idle →
    (∀ v : Byte, ∃ m, exec (.wr8Buf (BitVec.ofNat 12 k) v) s = .next { s with buf := m }
        ∧ ∀ j, m.read j = if j = k then some v else s.buf.read j)
      ∧ (∀ v : BitVec 16, k % 2 = 0 → ∃ m, exec (.wr16Buf (BitVec.ofNat 12 k) v) s = .next { s with buf := m }
        ∧ ∀ j, m.read j = if k ≤ j ∧ j < k + 2 then some (v.extractLsb' (8 * (j - k)) 8) else s.buf.read j)
      ∧ (∀ v : Word, k % 4 = 0 → ∃ m, exec (.wr32Buf (BitVec.ofNat 12 k) v) s = .next { s with buf := m }
        ∧ ∀ j, m.read j = if k ≤ j ∧ j < k + 4 then some (v.extractLsb' (8 * (j - k)) 8) else s.buf.read j))
    ∧ (∀ (k : BitVec 12) (s : State), IsBusy s →
      (∀ v, exec (.wr8Buf k v) s = .next (withError 4#4 s)) ∧ (∀ v, exec (.wr16Buf k v) s = .next (withError 4#4 s))
        ∧ (∀ v, exec (.wr32Buf k v) s = .next (withError 4#4 s)))
    ∧ (∀ (k : Nat) (v : Word), k < 2352 →
      decode (.acc16 (descriptor 1 0 (0x1000 + k)) v) = .wr8Buf (BitVec.ofNat 12 k) (v.extractLsb' 0 8)
        ∧ (k % 2 = 0 → decode (.acc16 (descriptor 1 1 (0x1000 + k)) v) = .wr16Buf (BitVec.ofNat 12 k) (v.extractLsb' 0 16))
        ∧ (k % 4 = 0 → decode (.acc16 (descriptor 1 2 (0x1000 + k)) v) = .wr32Buf (BitVec.ofNat 12 k) v))

/-- 45_host_access.md R262: an illegal access records ACCESS in every phase, a read of it returns 0, and nothing else changes. -/
def Obligations.IllegalAccessRecordsAccess : Prop :=
  ∀ (d : Descriptor) (s : State),
    exec (.illegalAccess d) s
      = .next (if d.toNat < 32768 then returned 0#32 (withError 5#4 s) else withError 5#4 s)

/-- 70_reset_and_hazards.md R222: while BUSY every protected write is ignored and records BUSY; the writes of STATUS, ERRCODE and IRQ_EN
and every read act as while IDLE, but that STATUS shows BUSY. -/
def Obligations.ProtectedWritesAreIgnoredWhileBusy : Prop :=
  ∀ s : State, IsBusy s →
    (∀ i : Instr, (∃ w, i = .wr32Cmd w) ∨ (∃ v, i = .wr32EdcAcc v) ∨ (∃ v, i = .wr8EdcData v) ∨ (∃ v, i = .wr16EdcData v)
        ∨ (∃ v, i = .wr32EdcData v) ∨ (∃ v, i = .wr32ArgOff v) ∨ (∃ v, i = .wr32ArgLen v) ∨ (∃ v, i = .wr32Avail v)
        ∨ (∃ k v, i = .wr8Buf k v) ∨ (∃ k v, i = .wr16Buf k v) ∨ (∃ k v, i = .wr32Buf k v) →
        exec i s = .next (withError 4#4 s))
      ∧ (∀ i : Instr, ∀ t : State, (∃ v, i = .wr32Status v) ∨ (∃ v, i = .wr32Errcode v) ∨ (∃ v, i = .wr32IrqEn v) →
        exec i { s with engine := .idle } = .next t → exec i s = .next { t with engine := s.engine })
      ∧ (∀ i : Instr, i ∈ [Instr.rd32Id, .rd32Cmd, .rd32Errcode, .rd32Result, .rd32EdcAcc, .rd32EdcData, .rd8EdcData,
          .rd16EdcData, .rd32ArgOff, .rd32ArgLen, .rd32Avail, .rd32IrqEn] ∨ (∃ o, i = .rd8Table o)
          ∨ (∃ o, i = .rd16Table o) ∨ (∃ o, i = .rd32Table o) ∨ (∃ k, i = .rd8Buf k) ∨ (∃ k, i = .rd16Buf k)
          ∨ (∃ k, i = .rd32Buf k) → ∀ t : State,
        exec i { s with engine := .idle } = .next t → exec i s = .next { t with engine := s.engine })
      ∧ (∃ v, exec .rd32Status s = .next (returned v s)
          ∧ exec .rd32Status { s with engine := .idle } = .next (returned (v - 1#32) { s with engine := .idle })
          ∧ v.getLsbD 0 = true)

/-! ### Commands -/

/-- 60_exceptions.md R183, R184, R190 and R191 with 45_host_access.md R251: what a CMD write does, for every word and state. -/
def Obligations.CommandWriteFollowsTheIssueProtocol : Prop :=
  ∀ (w : Word) (s : State),
    decode (.acc16 0xC004#16 w) = .wr32Cmd w
    ∧ (IsBusy s → exec (.wr32Cmd w) s = .next (withError 4#4 s))
    ∧ (s.engine = .idle →
      (¬ LegalBits w → exec (.wr32Cmd w) s = .next (rejected w 1#4 s))
        ∧ (LegalBits w → ¬ RangePasses w s → exec (.wr32Cmd w) s = .next (rejected w 2#4 s))
        ∧ (LegalBits w → RangePasses w s → ¬ PrecondPasses w s → exec (.wr32Cmd w) s = .next (rejected w 3#4 s))
        ∧ (LegalBits w → RangePasses w s → PrecondPasses w s → exec (.wr32Cmd w) s = .next (accepted w s)))

/-- 30_encoding.md R79 and 60_exceptions.md R191: an illegal word as an instruction; that it is ignored while BUSY is the model's
reading of R184 (log entry 11). -/
def Obligations.IllegalCommandIsRejected : Prop :=
  ∀ (w : Word) (s : State), ¬ LegalBits w →
    (s.engine = .idle → exec (.illegalCmd w) s = .next (rejected w 1#4 s))
      ∧ (IsBusy s → exec (.illegalCmd w) s = .next (withError 4#4 s))

/-- 44_classify.md R165: NOP, its encoding, its issue and its completion. -/
def Obligations.NopOnlyCompletes : Prop :=
  decode (.cmd32 0x00000000#32) = .nop
    ∧ ∀ s : State,
      (s.engine = .idle → exec .nop s = .next (accepted 0#32 s))
        ∧ (IsBusy s → exec .nop s = .next (completed 0#32 s))

/-- 41_edc.md R114: EDC_BLOCK, its encoding, its issue checks, its completion and its fault. -/
def Obligations.EdcBlockFoldsTheRange : Prop :=
  decode (.cmd32 0x00000001#32) = .edcBlock
    ∧ ∀ s : State,
      (s.engine = .idle →
        (s.argOff.toNat + s.argLen.toNat ≤ 2352 → exec .edcBlock s = .next (accepted 1#32 s))
          ∧ (2352 < s.argOff.toNat + s.argLen.toNat → exec .edcBlock s = .next (rejected 1#32 2#4 s)))
      ∧ (∀ p, s.engine = .busy p →
        (∀ bs : List Byte, bs.length = p.len.toNat → (∀ j b, bs[j]? = some b → s.buf.read (p.off.toNat + j) = some b) →
            exec .edcBlock s = .next { s with edcAcc := edcUpdate p.acc bs, result := 0#32, engine := .idle, done := true })
          ∧ (∀ k, LowestUnwritten s.buf (List.range' p.off.toNat p.len.toNat) k →
            exec .edcBlock s = .fault (.uninitRead k)))

/-- 41_edc.md R115: EDC_COMPARE, its encoding, its issue checks, its completion and its fault. -/
def Obligations.EdcCompareComparesTheStoredEdc : Prop :=
  decode (.cmd32 0x00000002#32) = .edcCompare
    ∧ ∀ s : State,
      (s.engine = .idle →
        (s.argOff.toNat + 4 ≤ 2352 → exec .edcCompare s = .next (accepted 2#32 s))
          ∧ (2352 < s.argOff.toNat + 4 → exec .edcCompare s = .next (rejected 2#32 2#4 s)))
      ∧ (∀ p, s.engine = .busy p →
        (∀ b0 b1 b2 b3, s.buf.read p.off.toNat = some b0 → s.buf.read (p.off.toNat + 1) = some b1 →
            s.buf.read (p.off.toNat + 2) = some b2 → s.buf.read (p.off.toNat + 3) = some b3 →
            exec .edcCompare s = .next (completed (if p.acc.toNat = leNat b0 b1 b2 b3 then 1#32 else 0#32) s))
          ∧ (∀ k, LowestUnwritten s.buf (List.range' p.off.toNat 4) k → exec .edcCompare s = .fault (.uninitRead k)))

/-- 42_ecc.md R134: ECC_VERIFY in its four forms: its encoding, its issue check over the whole read set, its completion on the bytes of
the read set alone, and its fault. The form VIEW without ZA is never accepted. -/
def Obligations.EccVerifyReportsPAndQ : Prop :=
  (∀ za view : Bool, decode (.cmd32 (BitVec.ofNat 32 (3 + 16 * za.toNat + 32 * view.toNat))) = .eccVerify za view)
    ∧ ∀ (za view : Bool) (s : State),
      (s.engine = .idle →
        (EccInRange (base view) za s.argOff.toNat →
            exec (.eccVerify za view) s = .next (accepted (BitVec.ofNat 32 (3 + 16 * za.toNat + 32 * view.toNat)) s))
          ∧ (¬ EccInRange (base view) za s.argOff.toNat →
            exec (.eccVerify za view) s = .next (rejected (BitVec.ofNat 32 (3 + 16 * za.toNat + 32 * view.toNat)) 2#4 s))
          ∧ (za = false → view = true →
            exec (.eccVerify za view) s = .next (rejected 0x23#32 2#4 s)))
      ∧ (∀ p, s.engine = .busy p → EccInRange (base view) za p.off.toNat →
        (∀ B : Int → Byte, (∀ j : Nat, InReadSet (base view) za p.off.toNat j → s.buf.read j = some (B j)) →
            exec (.eccVerify za view) s
              = .next (completed (BitVec.ofNat 32
                  ((eccVerify B (base view) za p.off.toNat).2.toNat
                    + 512 * (eccVerify B (base view) za p.off.toNat).1.toNat
                    + 1024 * (eccVerify B (base view) za p.off.toNat).2.toNat)) s))
          ∧ (∀ k : Nat, InReadSet (base view) za p.off.toNat k → s.buf.read k = none →
            (∀ j : Nat, j < k → InReadSet (base view) za p.off.toNat j → s.buf.read j ≠ none) →
            exec (.eccVerify za view) s = .fault (.uninitRead k)))

open Classical in
/-- 43_sync_subheader.md R152 with R150 and R151: SYNC_DETECT, its encoding, its issue, its completion and its fault. -/
def Obligations.SyncDetectReportsItsThreeParts : Prop :=
  decode (.cmd32 0x00000004#32) = .syncDetect
    ∧ ∀ s : State,
      (s.engine = .idle → exec .syncDetect s = .next (accepted 4#32 s))
      ∧ (IsBusy s →
        (∀ B : Int → Byte, Holds s.buf B ([0, 1, 2, 3, 4, 5, 6, 7, 8, 9, 10, 11, 15] ++ List.range' 0x814 8) →
            exec .syncDetect s
              = .next (completed (BitVec.ofNat 32
                  ((if SyncOk B ∧ ModeOk B ∧ RsvdOk B then 1 else 0) + (if SyncOk B then 8 else 0)
                    + (if ModeOk B then 16 else 0) + (if RsvdOk B then 32 else 0))) s))
          ∧ (∀ k, LowestUnwritten s.buf ([0, 1, 2, 3, 4, 5, 6, 7, 8, 9, 10, 11, 15] ++ List.range' 0x814 8) k →
            exec .syncDetect s = .fault (.uninitRead k)))

open Classical in
/-- 43_sync_subheader.md R153 with R154: SUBHDR_CHECK, its encoding, its issue, its completion and its fault. -/
def Obligations.SubhdrCheckComparesTheCopies : Prop :=
  decode (.cmd32 0x00000005#32) = .subhdrCheck
    ∧ ∀ s : State,
      (s.engine = .idle → exec .subhdrCheck s = .next (accepted 5#32 s))
      ∧ (IsBusy s →
        (∀ B : Int → Byte, Holds s.buf B [0, 1, 2, 3, 4, 5, 6, 7] →
            exec .subhdrCheck s = .next (completed (if SubOk B then 1#32 else 0#32) s))
          ∧ (∀ k, LowestUnwritten s.buf [0, 1, 2, 3, 4, 5, 6, 7] k → exec .subhdrCheck s = .fault (.uninitRead k)))

/-- 44_classify.md R162: CLASSIFY with and without M1: its encoding, its issue check, its completion on the bytes of its footprint
alone, and its fault. -/
def Obligations.ClassifyReportsItsVerdict : Prop :=
  decode (.cmd32 0x00000006#32) = .classify false ∧ decode (.cmd32 0x00000046#32) = .classify true
    ∧ ∀ (m1 : Bool) (s : State),
      (s.engine = .idle →
        (m1 = false ∨ 2352 ≤ s.avail.toNat →
            exec (.classify m1) s = .next (accepted (if m1 then 0x46#32 else 0x06#32) s))
          ∧ (m1 = true → s.avail.toNat < 2352 → exec (.classify m1) s = .next (rejected 0x46#32 3#4 s)))
      ∧ (∀ p, s.engine = .busy p →
        (p.avail.toNat < 2336 → exec (.classify m1) s = .next (completed 0#32 s))
          ∧ (2336 ≤ p.avail.toNat → ∀ B : Int → Byte, Holds s.buf B (List.range (if m1 then 2352 else 2336)) →
            ∀ v, v = Machine.classify B p.avail.toNat m1 →
              exec (.classify m1) s
                = .next (completed (BitVec.ofNat 32
                    ((if v.cls = .literal then 0 else 1) + 2 * (classTag v.cls).toNat + 64 * v.c1.toNat + 128 * v.c2.toNat
                      + 256 * v.c3.toNat)) s))
          ∧ (2336 ≤ p.avail.toNat → ∀ k, LowestUnwritten s.buf (List.range (if m1 then 2352 else 2336)) k →
            exec (.classify m1) s = .fault (.uninitRead k)))

/-! ### The functions of the commands -/

/-- 41_edc.md R110 and R111: the step by its table entry, and the update as the steps in order. -/
def Obligations.EdcUpdateStepsInOrder : Prop :=
  (∀ (acc : Word) (b : Byte),
      edcStep acc b = BitVec.ofNat 32 (acc.toNat / 256) ^^^ edcLut (BitVec.ofNat 8 ((acc.toNat ^^^ b.toNat) % 256)))
    ∧ (∀ acc, edcUpdate acc [] = acc)
    ∧ (∀ acc b s, edcUpdate acc (b :: s) = edcUpdate (edcStep acc b) s)

/-- 41_edc.md R112, which the spec marks "[derived: from rule R111]": chaining. -/
def Obligations.EdcUpdateChains : Prop :=
  ∀ (a : Word) (x y : List Byte), edcUpdate (edcUpdate a x) y = edcUpdate a (x ++ y)

/-- 41_edc.md R118, which the spec marks "[from general knowledge, not in source]", and R116, "[derived: …]": the bytes of the
accumulator folded into it leave 0, and zero bytes leave 0 at 0. -/
def Obligations.EdcResidueIsZero : Prop :=
  (∀ x : List Byte, ∀ e, e = edcUpdate 0#32 x →
      edcUpdate 0#32 (x ++ [e.extractLsb' 0 8, e.extractLsb' 8 8, e.extractLsb' 16 8, e.extractLsb' 24 8]) = 0#32)
    ∧ (∀ n, edcUpdate 0#32 (List.replicate n 0#8) = 0#32)

/-- 40_tables.md R104, which the spec marks "[derived: …]": the listed values, and the linearity of the three tables. -/
def Obligations.TablesAreLinear : Prop :=
  (∀ i j : Byte, edcLut (i ^^^ j) = edcLut i ^^^ edcLut j ∧ eccF (i ^^^ j) = eccF i ^^^ eccF j
      ∧ eccB (i ^^^ j) = eccB i ^^^ eccB j)
    ∧ edcLut 0x00#8 = 0x00000000#32 ∧ edcLut 0x80#8 = 0xD8018001#32 ∧ edcLut 0x01#8 = 0x90910101#32
    ∧ edcLut 0xFF#8 = 0x7070FF00#32 ∧ eccF 0x00#8 = 0x00#8 ∧ eccF 0x01#8 = 0x02#8 ∧ eccF 0x80#8 = 0x1D#8
    ∧ eccF 0xFF#8 = 0xE3#8 ∧ eccB 0x00#8 = 0x00#8 ∧ eccB 0x03#8 = 0x01#8 ∧ eccB 0x01#8 = 0xF4#8 ∧ eccB 0xFF#8 = 0x55#8

/-- 40_tables.md R100, R101 and R102, whose closed forms the spec marks "[from general knowledge, not in source]": every entry of the
three tables. -/
def Obligations.TablesAreThoseOfTheRules : Prop :=
  (∀ i : Byte, (edcLut i).toNat
      = shiftStep (shiftStep (shiftStep (shiftStep (shiftStep (shiftStep (shiftStep (shiftStep i.toNat))))))))
    ∧ (∀ i : Byte, (eccF i).toNat = (2 * i.toNat ^^^ (if 128 ≤ i.toNat then 0x11D else 0)) % 256)
    ∧ (∀ i j : Byte, eccB j = i ↔ i ^^^ eccF i = j)

/-- 42_ecc.md R138, which the spec marks "[from general knowledge, not in source]": a sector verifies exactly when every P and every
Q codeword has both syndromes zero, for every content, view, zero-address mode and parity place. -/
def Obligations.EccVerifiesExactlyWhenSyndromesVanish : Prop :=
  ∀ (B : Int → Byte) (vb : Int) (za : Bool) (dest : Nat),
    ((eccVerify B vb za dest).1 = true ↔
        ∀ major, major < 86 → xorSum (pCodeword B vb za dest major) = 0#8 ∧ weightedSum (pCodeword B vb za dest major) = 0#8)
      ∧ ((eccVerify B vb za dest).2 = true ↔
        (∀ major, major < 86 → xorSum (pCodeword B vb za dest major) = 0#8 ∧ weightedSum (pCodeword B vb za dest major) = 0#8)
          ∧ ∀ major, major < 52 → xorSum (qCodeword B vb za dest major) = 0#8 ∧ weightedSum (qCodeword B vb za dest major) = 0#8)

/-- 42_ecc.md R137, which the spec marks "[derived: …]": the verification depends on the bytes of its read set alone. -/
def Obligations.EccVerifyDependsOnItsReadSetAlone : Prop :=
  ∀ (B C : Int → Byte) (vb : Int) (za : Bool) (dest : Nat),
    (∀ j, InReadSet vb za dest j → B j = C j) → eccVerify B vb za dest = eccVerify C vb za dest

/-- 44_classify.md R163, which the spec marks "[derived: …]": the cascade with its short-circuits gives the closed form. -/
def Obligations.ClassifyIsItsClosedForm : Prop :=
  ∀ (B : Int → Byte) (avail : Nat) (m1 : Bool),
    ((classify B avail m1).c1 = true ↔
        2336 ≤ avail ∧ m1 = true ∧ (SyncOk B ∧ ModeOk B ∧ RsvdOk B) ∧ StoredEdc B 0x810 (edcUpdate 0#32 (bytes B 0 0x810))
          ∧ eccVerify B 0 false 0x81C = (true, true))
      ∧ ((classify B avail m1).c2 = true ↔
        2336 ≤ avail ∧ SubOk B ∧ StoredEdc B 0x808 (edcUpdate 0#32 (bytes B 0 0x808))
          ∧ eccVerify B (-16) true 0x80C = (true, true))
      ∧ ((classify B avail m1).c3 = true ↔
        2336 ≤ avail ∧ SubOk B ∧ StoredEdc B 0x91C (edcUpdate 0#32 (bytes B 0 0x91C)))
      ∧ (classify B avail m1).cls =
        (if (classify B avail m1).c1 = true then .mode1 else if (classify B avail m1).c2 = true then .mode2Form1
          else if (classify B avail m1).c3 = true then .mode2Form2 else .literal)

/-- 44_classify.md R164 and 43_sync_subheader.md R155, which the spec marks "[derived: …]": Mode1 and a mode-2 type never survive
together, and without M1 no class is Mode1. -/
def Obligations.Mode1ExcludesMode2 : Prop :=
  ∀ (B : Int → Byte) (avail : Nat) (m1 : Bool),
    ((classify B avail m1).c1 = true → (classify B avail m1).c2 = false ∧ (classify B avail m1).c3 = false)
      ∧ (SyncOk B → ¬ SubOk B)
      ∧ (classify B avail false).cls ≠ .mode1

/-! ### The whole machine -/

/-- 41_edc.md R117, which the spec marks "[derived: …]", for EDC_DATA writes: any sequence of them, of any sizes, leaves in EDC_ACC the
EDC of all their bytes in order, and changes nothing else. -/
def Obligations.FeedingEdcDataChecksumsTheInput : Prop :=
  ∀ (feeds : List Feed) (later : List Event) (s : State),
    s.fault = none → s.engine = .idle → s.inputs = feeds.map Feed.event ++ later →
      advanceN feeds.length s
        = { s with edcAcc := edcUpdate s.edcAcc (feeds.flatMap Feed.bytes), inputs := later }

/-- Every step keeps the invariant: the buffer's canonical form, the codes that are produced, the reserved bits of RESULT, and the
pending command frozen, accepted and not DONE (10_state.md R25, R34, R37; 60_exceptions.md R180, R190). -/
def Obligations.StepKeepsTheInvariant : Prop :=
  ∀ s t : State, Inv s → step s = .next t → Inv t

/-- The invariant holds right after reset (10_state.md R41). -/
def Obligations.ResetMeetsTheInvariant : Prop := Inv State.reset

/-- 60_exceptions.md R193 and R192: a step of a state of the invariant stops only at a byte of the buffer that nothing has written,
refuses nothing, and always answers a next state when the whole buffer is written. -/
def Obligations.StepStopsOnlyAtAnUnwrittenByte : Prop :=
  ∀ s : State, Inv s → s.fault = none →
    (∀ k, step s = .fault (.uninitRead k) → k < 2352 ∧ s.buf.read k = none)
      ∧ (∀ r, step s ≠ .refused r)
      ∧ ((∀ k, k < 2352 → s.buf.read k ≠ none) → ∃ t, step s = .next t)

/-- 42_ecc.md R133 and 20_memory.md R50: of all instructions only the buffer writes change the buffer; only EDC_ACC writes, EDC_DATA
writes and EDC_BLOCK change EDC_ACC (10_state.md R26). -/
def Obligations.OnlyWritesChangeBufferAndAccumulator : Prop :=
  ∀ (i : Instr) (s t : State), exec i s = .next t →
    ((∀ k v, i ≠ .wr8Buf k v) → (∀ k v, i ≠ .wr16Buf k v) → (∀ k v, i ≠ .wr32Buf k v) → t.buf = s.buf)
      ∧ ((∀ v, i ≠ .wr32EdcAcc v) → (∀ v, i ≠ .wr8EdcData v) → (∀ v, i ≠ .wr16EdcData v) → (∀ v, i ≠ .wr32EdcData v) →
          i ≠ .edcBlock → t.edcAcc = s.edcAcc)

/-- 60_exceptions.md R181 and 45_host_access.md R253: a recorded error stays until an ERRCODE write or a reset. -/
def Obligations.RecordedErrorIsSticky : Prop :=
  ∀ s t : State, step s = .next t → s.errcode ≠ 0#4 →
    (∀ v later, s.inputs ≠ .access 0xC00C#16 v :: later) → (∀ later, s.inputs ≠ .reset :: later) →
      t.errcode = s.errcode

/-- 60_exceptions.md R192, which the spec marks "[derived: …]": an instruction that records an error changes nothing but CMD, DONE,
RESULT, ERRCODE and the answer of a read. -/
def Obligations.ErrorsArePrecise : Prop :=
  ∀ (i : Instr) (s t : State), exec i s = .next t → t.errcode ≠ s.errcode → t.errcode ≠ 0#4 →
    t = { s with cmd := t.cmd, done := t.done, result := t.result, errcode := t.errcode, rdata := t.rdata }

/-- 10_state.md R34 and 20_memory.md R66: no host access changes the pending command, its operands, the buffer or RESULT while BUSY. -/
def Obligations.PendingCommandIsFrozen : Prop :=
  ∀ (s t : State) (p : Pending) (d : Descriptor) (v : Word) (later : List Event),
    s.engine = .busy p → s.inputs = .access d v :: later → step s = .next t →
      t.engine = .busy p ∧ t.cmd = s.cmd ∧ t.argOff = s.argOff ∧ t.argLen = s.argLen ∧ t.avail = s.avail
        ∧ t.edcAcc = s.edcAcc ∧ t.result = s.result ∧ t.buf = s.buf

/-- 70_reset_and_hazards.md R221, the weak fairness as the model has it (log entry 3): a pending command completes, is reset or faults
after at most the steps to come and one more. -/
def Obligations.PendingCommandEnds : Prop :=
  ∀ (s : State) (p : Pending), Inv s → s.fault = none → s.engine = .busy p →
    ∃ n, n ≤ s.inputs.length + 1 ∧ ((advanceN n s).engine = .idle ∨ (advanceN n s).fault ≠ none)

/-- 70_reset_and_hazards.md R223: a protected write that races with completion has both outcomes: after a NOP the write takes effect
if the engine's turn comes first, and is lost with `Error(BUSY)` if the write comes first. -/
def Obligations.BusyRaceHasBothOutcomes : Prop :=
  ∀ (s : State) (v : Word), s.fault = none → s.engine = .idle → s.errcode = 0#4 →
    advanceN 3 { s with inputs := [.access 0xC004#16 0#32, .engine, .access 0xC014#16 v] }
        = { s with inputs := [], cmd := 0#32, done := true, result := 0#32, edcAcc := v }
      ∧ advanceN 3 { s with inputs := [.access 0xC004#16 0#32, .access 0xC014#16 v, .engine] }
        = { s with inputs := [], cmd := 0#32, done := true, result := 0#32, errcode := 4#4 }

/-- 60_exceptions.md R195: the interrupt output in every state, and bit 3 of STATUS as a read of it returns it. -/
def Obligations.IrqIsALiveLevel : Prop :=
  ∀ s : State,
    (s.irq = true ↔ (s.done = true ∧ s.irqEn.getLsbD 0 = true) ∨ (s.errcode ≠ 0#4 ∧ s.irqEn.getLsbD 1 = true))
      ∧ ∃ v, exec .rd32Status s = .next (returned v s) ∧ v.getLsbD 3 = s.irq
end

