-- ==== Sys2Proof/Laws/Memory.lean ====
section
/-! SUPPORT. The laws of the buffer: what a read gives after a write, and that every operation keeps the canonical form. -/

namespace Sys2Proof.Machine

@[simp] theorem Memory.read_nil (k : Nat) : Memory.read [] k = none := rfl

theorem Memory.read_cons (a : Nat) (b : Byte) (m : Memory) (k : Nat) :
    Memory.read ((a, b) :: m) k = if a = k then some b else Memory.read m k := by
  simp [Memory.read]

/-- A read after a write of one byte: the byte written at its offset, every other offset as before. -/
theorem Memory.read_write (m : Memory) (k j : Nat) (b : Byte) :
    (m.write k b).read j = if j = k then some b else m.read j := by
  induction m with
  | nil => simp [Memory.write, Memory.read_cons, eq_comm]
  | cons c m ih =>
    obtain ⟨a, c⟩ := c
    by_cases hlt : k < a
    · simp [Memory.write, hlt, Memory.read_cons, eq_comm]
    · by_cases hak : a = k
      · subst hak
        by_cases hj : j = a <;> simp [Memory.write, Memory.read_cons, hj, eq_comm]
      · rw [Memory.write]
        simp only [hlt, if_false, beq_iff_eq, hak, Memory.read_cons, ih]
        by_cases haj : a = j
        · subst haj; simp [hak]
        · simp [haj]

/-- A read after a write of several bytes: a byte written inside the range, every other offset as before. -/
theorem Memory.read_writeBytes (m : Memory) (k j : Nat) (bs : List Byte) :
    (m.writeBytes k bs).read j = if k ≤ j ∧ j < k + bs.length then bs[j - k]? else m.read j := by
  induction bs generalizing m k with
  | nil => simp [Memory.writeBytes]
  | cons b bs ih =>
    rw [Memory.writeBytes, ih, Memory.read_write]
    by_cases hjk : j = k
    · subst hjk; simp
    · by_cases hin : k + 1 ≤ j ∧ j < k + 1 + bs.length
      · have h2 : k ≤ j ∧ j < k + (bs.length + 1) := by omega
        have h3 : j - k = (j - (k + 1)) + 1 := by omega
        simp [hin, h2, h3]
      · have h2 : ¬ (k ≤ j ∧ j < k + (bs.length + 1)) := by omega
        rw [if_neg hin, if_neg hjk, List.length_cons, if_neg h2]

/-- Writing one byte at an offset of the buffer at or above the bound keeps the canonical form from that bound on. -/
theorem Memory.wfFrom_write (m : Memory) (lo k : Nat) (b : Byte) (hlo : lo ≤ k) (hk : k < Config.bufSize)
    (h : Memory.wfFrom lo m = true) : Memory.wfFrom lo (m.write k b) = true := by
  induction m generalizing lo with
  | nil => simp [Memory.write, Memory.wfFrom, hlo, hk]
  | cons c m ih =>
    obtain ⟨a, c⟩ := c
    simp only [Memory.wfFrom, Bool.and_eq_true, decide_eq_true_eq] at h
    obtain ⟨⟨h1, h2⟩, h3⟩ := h
    by_cases hlt : k < a
    · simp [Memory.write, hlt, Memory.wfFrom, hlo, hk, h2, h3]
    · by_cases hak : a = k
      · subst hak; simp [Memory.write, Memory.wfFrom, h1, h2, h3]
      · rw [Memory.write]
        simp only [hlt, if_false, beq_iff_eq, hak, Memory.wfFrom, Bool.and_eq_true, decide_eq_true_eq]
        exact ⟨⟨h1, h2⟩, ih (a + 1) (by omega) h3⟩

/-- Writing one byte inside the buffer keeps the canonical form. -/
theorem Memory.wf_write (m : Memory) (k : Nat) (b : Byte) (hk : k < Config.bufSize) (h : m.wf = true) :
    (m.write k b).wf = true :=
  Memory.wfFrom_write m 0 k b (Nat.zero_le k) hk h

/-- Writing several bytes inside the buffer keeps the canonical form. -/
theorem Memory.wf_writeBytes (m : Memory) (k : Nat) (bs : List Byte) (hk : k + bs.length ≤ Config.bufSize)
    (h : m.wf = true) : (m.writeBytes k bs).wf = true := by
  induction bs generalizing m k with
  | nil => exact h
  | cons b bs ih =>
    simp only [List.length_cons] at hk
    exact ih (m.write k b) (k + 1) (by omega) (Memory.wf_write m k b (by omega) h)

/-- The buffer after reset is in canonical form. -/
theorem reset_buf_wf : State.reset.buf.wf = true := rfl

/-- Where a byte stands, a command reads it. -/
theorem Memory.byteAt_of_read {m : Memory} {k : Nat} {b : Byte} (h : m.read k = some b) : m.byteAt k = b := by
  show (m.read k).getD _ = b
  rw [h]; rfl

/-- No unwritten offset in a list, exactly when every offset of it holds a byte. -/
theorem Memory.firstUnwritten_eq_none {m : Memory} {offsets : List Nat} :
    m.firstUnwritten offsets = none ↔ ∀ k ∈ offsets, ∃ b, m.read k = some b := by
  simp [Memory.firstUnwritten, Option.ne_none_iff_exists', ← ne_eq]

end Sys2Proof.Machine
end

