-- ==== Sys2Proof/Laws/State.lean ====
section
/-! SUPPORT. One lemma for each field of State under each named update, true by rfl, so that no proof unfolds a record update. -/

namespace Sys2Proof.Machine

/-! ### answer: a host read returns its value -/

@[simp] theorem State.answer_cmd (v : Word) (s : State) : (s.answer v).cmd = s.cmd := rfl
@[simp] theorem State.answer_done (v : Word) (s : State) : (s.answer v).done = s.done := rfl
@[simp] theorem State.answer_errcode (v : Word) (s : State) : (s.answer v).errcode = s.errcode := rfl
@[simp] theorem State.answer_result (v : Word) (s : State) : (s.answer v).result = s.result := rfl
@[simp] theorem State.answer_edcAcc (v : Word) (s : State) : (s.answer v).edcAcc = s.edcAcc := rfl
@[simp] theorem State.answer_argOff (v : Word) (s : State) : (s.answer v).argOff = s.argOff := rfl
@[simp] theorem State.answer_argLen (v : Word) (s : State) : (s.answer v).argLen = s.argLen := rfl
@[simp] theorem State.answer_avail (v : Word) (s : State) : (s.answer v).avail = s.avail := rfl
@[simp] theorem State.answer_irqEn (v : Word) (s : State) : (s.answer v).irqEn = s.irqEn := rfl
@[simp] theorem State.answer_engine (v : Word) (s : State) : (s.answer v).engine = s.engine := rfl
@[simp] theorem State.answer_buf (v : Word) (s : State) : (s.answer v).buf = s.buf := rfl
@[simp] theorem State.answer_fault (v : Word) (s : State) : (s.answer v).fault = s.fault := rfl
@[simp] theorem State.answer_rdata (v : Word) (s : State) : (s.answer v).rdata = some v := rfl
@[simp] theorem State.answer_inputs (v : Word) (s : State) : (s.answer v).inputs = s.inputs := rfl

/-! ### raise: an error is recorded -/

@[simp] theorem State.raise_cmd (c : ErrCode) (s : State) : (s.raise c).cmd = s.cmd := rfl
@[simp] theorem State.raise_done (c : ErrCode) (s : State) : (s.raise c).done = s.done := rfl
@[simp] theorem State.raise_errcode (c : ErrCode) (s : State) : (s.raise c).errcode = if s.errcode == 0#4 then errNumber c else s.errcode := rfl
@[simp] theorem State.raise_result (c : ErrCode) (s : State) : (s.raise c).result = s.result := rfl
@[simp] theorem State.raise_edcAcc (c : ErrCode) (s : State) : (s.raise c).edcAcc = s.edcAcc := rfl
@[simp] theorem State.raise_argOff (c : ErrCode) (s : State) : (s.raise c).argOff = s.argOff := rfl
@[simp] theorem State.raise_argLen (c : ErrCode) (s : State) : (s.raise c).argLen = s.argLen := rfl
@[simp] theorem State.raise_avail (c : ErrCode) (s : State) : (s.raise c).avail = s.avail := rfl
@[simp] theorem State.raise_irqEn (c : ErrCode) (s : State) : (s.raise c).irqEn = s.irqEn := rfl
@[simp] theorem State.raise_engine (c : ErrCode) (s : State) : (s.raise c).engine = s.engine := rfl
@[simp] theorem State.raise_buf (c : ErrCode) (s : State) : (s.raise c).buf = s.buf := rfl
@[simp] theorem State.raise_fault (c : ErrCode) (s : State) : (s.raise c).fault = s.fault := rfl
@[simp] theorem State.raise_rdata (c : ErrCode) (s : State) : (s.raise c).rdata = s.rdata := rfl
@[simp] theorem State.raise_inputs (c : ErrCode) (s : State) : (s.raise c).inputs = s.inputs := rfl

/-! ### reject: a command is rejected -/

@[simp] theorem State.reject_cmd (c : ErrCode) (s : State) : (s.reject c).cmd = s.cmd := rfl
@[simp] theorem State.reject_done (c : ErrCode) (s : State) : (s.reject c).done = true := rfl
@[simp] theorem State.reject_errcode (c : ErrCode) (s : State) : (s.reject c).errcode = if s.errcode == 0#4 then errNumber c else s.errcode := rfl
@[simp] theorem State.reject_result (c : ErrCode) (s : State) : (s.reject c).result = 0#32 := rfl
@[simp] theorem State.reject_edcAcc (c : ErrCode) (s : State) : (s.reject c).edcAcc = s.edcAcc := rfl
@[simp] theorem State.reject_argOff (c : ErrCode) (s : State) : (s.reject c).argOff = s.argOff := rfl
@[simp] theorem State.reject_argLen (c : ErrCode) (s : State) : (s.reject c).argLen = s.argLen := rfl
@[simp] theorem State.reject_avail (c : ErrCode) (s : State) : (s.reject c).avail = s.avail := rfl
@[simp] theorem State.reject_irqEn (c : ErrCode) (s : State) : (s.reject c).irqEn = s.irqEn := rfl
@[simp] theorem State.reject_engine (c : ErrCode) (s : State) : (s.reject c).engine = s.engine := rfl
@[simp] theorem State.reject_buf (c : ErrCode) (s : State) : (s.reject c).buf = s.buf := rfl
@[simp] theorem State.reject_fault (c : ErrCode) (s : State) : (s.reject c).fault = s.fault := rfl
@[simp] theorem State.reject_rdata (c : ErrCode) (s : State) : (s.reject c).rdata = s.rdata := rfl
@[simp] theorem State.reject_inputs (c : ErrCode) (s : State) : (s.reject c).inputs = s.inputs := rfl

/-! ### latchCmd: an issue begins -/

@[simp] theorem State.latchCmd_cmd (w : Word) (s : State) : (s.latchCmd w).cmd = w := rfl
@[simp] theorem State.latchCmd_done (w : Word) (s : State) : (s.latchCmd w).done = false := rfl
@[simp] theorem State.latchCmd_errcode (w : Word) (s : State) : (s.latchCmd w).errcode = s.errcode := rfl
@[simp] theorem State.latchCmd_result (w : Word) (s : State) : (s.latchCmd w).result = s.result := rfl
@[simp] theorem State.latchCmd_edcAcc (w : Word) (s : State) : (s.latchCmd w).edcAcc = s.edcAcc := rfl
@[simp] theorem State.latchCmd_argOff (w : Word) (s : State) : (s.latchCmd w).argOff = s.argOff := rfl
@[simp] theorem State.latchCmd_argLen (w : Word) (s : State) : (s.latchCmd w).argLen = s.argLen := rfl
@[simp] theorem State.latchCmd_avail (w : Word) (s : State) : (s.latchCmd w).avail = s.avail := rfl
@[simp] theorem State.latchCmd_irqEn (w : Word) (s : State) : (s.latchCmd w).irqEn = s.irqEn := rfl
@[simp] theorem State.latchCmd_engine (w : Word) (s : State) : (s.latchCmd w).engine = s.engine := rfl
@[simp] theorem State.latchCmd_buf (w : Word) (s : State) : (s.latchCmd w).buf = s.buf := rfl
@[simp] theorem State.latchCmd_fault (w : Word) (s : State) : (s.latchCmd w).fault = s.fault := rfl
@[simp] theorem State.latchCmd_rdata (w : Word) (s : State) : (s.latchCmd w).rdata = s.rdata := rfl
@[simp] theorem State.latchCmd_inputs (w : Word) (s : State) : (s.latchCmd w).inputs = s.inputs := rfl

/-! ### accept: a command is accepted -/

@[simp] theorem State.accept_cmd (w : Word) (s : State) : (s.accept w).cmd = s.cmd := rfl
@[simp] theorem State.accept_done (w : Word) (s : State) : (s.accept w).done = s.done := rfl
@[simp] theorem State.accept_errcode (w : Word) (s : State) : (s.accept w).errcode = s.errcode := rfl
@[simp] theorem State.accept_result (w : Word) (s : State) : (s.accept w).result = s.result := rfl
@[simp] theorem State.accept_edcAcc (w : Word) (s : State) : (s.accept w).edcAcc = s.edcAcc := rfl
@[simp] theorem State.accept_argOff (w : Word) (s : State) : (s.accept w).argOff = s.argOff := rfl
@[simp] theorem State.accept_argLen (w : Word) (s : State) : (s.accept w).argLen = s.argLen := rfl
@[simp] theorem State.accept_avail (w : Word) (s : State) : (s.accept w).avail = s.avail := rfl
@[simp] theorem State.accept_irqEn (w : Word) (s : State) : (s.accept w).irqEn = s.irqEn := rfl
@[simp] theorem State.accept_engine (w : Word) (s : State) : (s.accept w).engine = .busy ⟨w, s.argOff, s.argLen, s.avail, s.edcAcc⟩ := rfl
@[simp] theorem State.accept_buf (w : Word) (s : State) : (s.accept w).buf = s.buf := rfl
@[simp] theorem State.accept_fault (w : Word) (s : State) : (s.accept w).fault = s.fault := rfl
@[simp] theorem State.accept_rdata (w : Word) (s : State) : (s.accept w).rdata = s.rdata := rfl
@[simp] theorem State.accept_inputs (w : Word) (s : State) : (s.accept w).inputs = s.inputs := rfl

/-! ### complete: a command completes -/

@[simp] theorem State.complete_cmd (r : ResultBits) (s : State) : (s.complete r).cmd = s.cmd := rfl
@[simp] theorem State.complete_done (r : ResultBits) (s : State) : (s.complete r).done = true := rfl
@[simp] theorem State.complete_errcode (r : ResultBits) (s : State) : (s.complete r).errcode = s.errcode := rfl
@[simp] theorem State.complete_result (r : ResultBits) (s : State) : (s.complete r).result = packResult r := rfl
@[simp] theorem State.complete_edcAcc (r : ResultBits) (s : State) : (s.complete r).edcAcc = s.edcAcc := rfl
@[simp] theorem State.complete_argOff (r : ResultBits) (s : State) : (s.complete r).argOff = s.argOff := rfl
@[simp] theorem State.complete_argLen (r : ResultBits) (s : State) : (s.complete r).argLen = s.argLen := rfl
@[simp] theorem State.complete_avail (r : ResultBits) (s : State) : (s.complete r).avail = s.avail := rfl
@[simp] theorem State.complete_irqEn (r : ResultBits) (s : State) : (s.complete r).irqEn = s.irqEn := rfl
@[simp] theorem State.complete_engine (r : ResultBits) (s : State) : (s.complete r).engine = .idle := rfl
@[simp] theorem State.complete_buf (r : ResultBits) (s : State) : (s.complete r).buf = s.buf := rfl
@[simp] theorem State.complete_fault (r : ResultBits) (s : State) : (s.complete r).fault = s.fault := rfl
@[simp] theorem State.complete_rdata (r : ResultBits) (s : State) : (s.complete r).rdata = s.rdata := rfl
@[simp] theorem State.complete_inputs (r : ResultBits) (s : State) : (s.complete r).inputs = s.inputs := rfl

/-! ### recordFault: a fault is recorded -/

@[simp] theorem State.recordFault_cmd (k : Nat) (s : State) : (s.recordFault k).cmd = s.cmd := rfl
@[simp] theorem State.recordFault_done (k : Nat) (s : State) : (s.recordFault k).done = s.done := rfl
@[simp] theorem State.recordFault_errcode (k : Nat) (s : State) : (s.recordFault k).errcode = s.errcode := rfl
@[simp] theorem State.recordFault_result (k : Nat) (s : State) : (s.recordFault k).result = s.result := rfl
@[simp] theorem State.recordFault_edcAcc (k : Nat) (s : State) : (s.recordFault k).edcAcc = s.edcAcc := rfl
@[simp] theorem State.recordFault_argOff (k : Nat) (s : State) : (s.recordFault k).argOff = s.argOff := rfl
@[simp] theorem State.recordFault_argLen (k : Nat) (s : State) : (s.recordFault k).argLen = s.argLen := rfl
@[simp] theorem State.recordFault_avail (k : Nat) (s : State) : (s.recordFault k).avail = s.avail := rfl
@[simp] theorem State.recordFault_irqEn (k : Nat) (s : State) : (s.recordFault k).irqEn = s.irqEn := rfl
@[simp] theorem State.recordFault_engine (k : Nat) (s : State) : (s.recordFault k).engine = s.engine := rfl
@[simp] theorem State.recordFault_buf (k : Nat) (s : State) : (s.recordFault k).buf = s.buf := rfl
@[simp] theorem State.recordFault_fault (k : Nat) (s : State) : (s.recordFault k).fault = some k := rfl
@[simp] theorem State.recordFault_rdata (k : Nat) (s : State) : (s.recordFault k).rdata = s.rdata := rfl
@[simp] theorem State.recordFault_inputs (k : Nat) (s : State) : (s.recordFault k).inputs = s.inputs := rfl

/-! ### applyReset: the block is reset -/

@[simp] theorem State.applyReset_cmd (s : State) : (s.applyReset).cmd = State.reset.cmd := rfl
@[simp] theorem State.applyReset_done (s : State) : (s.applyReset).done = State.reset.done := rfl
@[simp] theorem State.applyReset_errcode (s : State) : (s.applyReset).errcode = State.reset.errcode := rfl
@[simp] theorem State.applyReset_result (s : State) : (s.applyReset).result = State.reset.result := rfl
@[simp] theorem State.applyReset_edcAcc (s : State) : (s.applyReset).edcAcc = State.reset.edcAcc := rfl
@[simp] theorem State.applyReset_argOff (s : State) : (s.applyReset).argOff = State.reset.argOff := rfl
@[simp] theorem State.applyReset_argLen (s : State) : (s.applyReset).argLen = State.reset.argLen := rfl
@[simp] theorem State.applyReset_avail (s : State) : (s.applyReset).avail = State.reset.avail := rfl
@[simp] theorem State.applyReset_irqEn (s : State) : (s.applyReset).irqEn = State.reset.irqEn := rfl
@[simp] theorem State.applyReset_engine (s : State) : (s.applyReset).engine = State.reset.engine := rfl
@[simp] theorem State.applyReset_buf (s : State) : (s.applyReset).buf = State.reset.buf := rfl
@[simp] theorem State.applyReset_fault (s : State) : (s.applyReset).fault = State.reset.fault := rfl
@[simp] theorem State.applyReset_rdata (s : State) : (s.applyReset).rdata = State.reset.rdata := rfl
@[simp] theorem State.applyReset_inputs (s : State) : (s.applyReset).inputs = s.inputs := rfl

end Sys2Proof.Machine
end

