-- ==== Sys2Proof/Laws/Ops.lean ====
section
/-! SUPPORT. For each shared operation, one lemma that says all it can do: proofs cite these and do not unfold the operations. -/

namespace Sys2Proof.Machine

/-- A protected write: `Error(BUSY)` alone while BUSY, its effect while IDLE. -/
theorem State.protectedWrite_cases (s : State) (f : State → State) :
    (s.engine = .idle ∧ s.protectedWrite f = f s)
      ∨ (∃ p, s.engine = .busy p ∧ s.protectedWrite f = s.raise .busy) := by
  unfold State.protectedWrite
  cases h : s.engine with
  | idle => exact .inl ⟨rfl, rfl⟩
  | busy p => exact .inr ⟨p, rfl, rfl⟩

/-- A command's step: its issue while IDLE, its completion while BUSY. -/
theorem commandStep_cases (w : Word) (run : Pending → Out) (s : State) :
    (s.engine = .idle ∧ commandStep w run s = .next (issue w s))
      ∨ (∃ p, s.engine = .busy p ∧ commandStep w run s = run p) := by
  unfold commandStep
  cases h : s.engine with
  | idle => exact .inl ⟨rfl, rfl⟩
  | busy p => exact .inr ⟨p, rfl, rfl⟩

/-- The engine's step on a command: the next state, exactly when the footprint is written. -/
theorem completeIfWritten_next {offsets : List Nat} {t s s' : State} :
    completeIfWritten offsets t s = .next s' ↔ Written s.buf offsets ∧ s' = t := by
  unfold completeIfWritten Written
  rw [← Memory.firstUnwritten_eq_none]
  cases h : s.buf.firstUnwritten offsets <;> simp [eq_comm]

/-- The engine's step on a command: the fault, exactly when some offset of the footprint is unwritten. -/
theorem completeIfWritten_fault {offsets : List Nat} {t s : State} {k : Nat} :
    completeIfWritten offsets t s = .fault (.uninitRead k) ↔ s.buf.firstUnwritten offsets = some k := by
  unfold completeIfWritten
  cases h : s.buf.firstUnwritten offsets <;> simp

/-- The engine's step on a command refuses nothing. -/
theorem completeIfWritten_not_refused {offsets : List Nat} {t s : State} {r : Refusal} :
    completeIfWritten offsets t s ≠ .refused r := by
  unfold completeIfWritten
  cases s.buf.firstUnwritten offsets <;> simp

/-- A buffer read: its value, exactly when its bytes are written. -/
theorem readBuf_next {n k : Nat} {s s' : State} :
    readBuf n k s = .next s' ↔
      Written s.buf (List.range' k n) ∧ s' = s.answer (leWord ((List.range' k n).map fun (j : Nat) => s.buf.byteAt j)) := by
  unfold readBuf Written
  rw [← Memory.firstUnwritten_eq_none]
  cases h : s.buf.firstUnwritten (List.range' k n) <;> simp [eq_comm]

/-- The issue protocol: a rejection at the first check that fails, or the acceptance. -/
theorem issue_cases (w : Word) (s : State) :
    (isLegal w = false ∧ issue w s = (s.latchCmd w).reject .illegalCmd)
      ∨ (isLegal w = true ∧ rangeOk w s = false ∧ issue w s = (s.latchCmd w).reject .range)
      ∨ (isLegal w = true ∧ rangeOk w s = true ∧ precondOk w s = false ∧ issue w s = (s.latchCmd w).reject .precond)
      ∨ (isLegal w = true ∧ rangeOk w s = true ∧ precondOk w s = true ∧ issue w s = (s.latchCmd w).accept w) := by
  unfold issue
  cases isLegal w <;> cases rangeOk w s <;> cases precondOk w s <;> simp

/-- What the next step is, by the fault record and the head of the steps to come. -/
theorem fetch_cases (s : State) :
    (∃ k, s.fault = some k ∧ fetch s = .stopped k)
      ∨ (s.fault = none ∧ s.inputs = [] ∧ fetch s = engineTurn s)
      ∨ (∃ d v later, s.fault = none ∧ s.inputs = .access d v :: later
          ∧ fetch s = .run (decodeAcc16 d v) { s with inputs := later })
      ∨ (∃ later, s.fault = none ∧ s.inputs = .engine :: later ∧ fetch s = engineTurn { s with inputs := later })
      ∨ (∃ later, s.fault = none ∧ s.inputs = .reset :: later
          ∧ fetch s = .rest { State.reset with inputs := later }) := by
  unfold fetch
  cases hf : s.fault with
  | some k => exact .inl ⟨k, rfl, rfl⟩
  | none =>
    match hi : s.inputs with
    | [] => exact .inr (.inl ⟨rfl, rfl, rfl⟩)
    | .access d v :: later => exact .inr (.inr (.inl ⟨d, v, later, rfl, rfl, rfl⟩))
    | .engine :: later => exact .inr (.inr (.inr (.inl ⟨later, rfl, rfl, rfl⟩)))
    | .reset :: later => exact .inr (.inr (.inr (.inr ⟨later, rfl, rfl, rfl⟩)))

/-- The engine's turn: nothing while IDLE, the pending command while BUSY. -/
theorem engineTurn_cases (s : State) :
    (s.engine = .idle ∧ engineTurn s = .rest s)
      ∨ (∃ p, s.engine = .busy p ∧ engineTurn s = .run (decodeCmd32 p.word) s) := by
  unfold engineTurn
  cases h : s.engine with
  | idle => exact .inl ⟨rfl, rfl⟩
  | busy p => exact .inr ⟨p, rfl, rfl⟩

end Sys2Proof.Machine
end

