-- ==== Sys2Proof/Laws/Tables.lean ====
section
/-! SUPPORT. The tables meet their defining rules. -/

namespace Sys2Proof.Machine

/-- Rule R102: the backward table at `i ^ ECC_F[i]` is `i`. -/
theorem eccB_spec : ∀ i : Byte, eccB (i ^^^ eccF i) = i := by decide

end Sys2Proof.Machine
end

