-- ==== Sys2Proof/Tests/Slice0.lean ====
section
/-! SUPPORT. Tests of one step each, with expected values from the spec's own encodings, tables and vectors (30_encoding.md,
40_tables.md, 95_test_vectors.md), and for every statement with hypotheses the states and operands that meet them. -/

namespace Sys2Proof.Tests

open Sys2Proof.Machine Sys2Proof.Claims

/-! ### Helpers -/

/-- One field of the next state; nothing after a fault. -/
def got {α : Type} (f : State → α) (o : Out) : Option α :=
  match o with
  | .next t => some (f t)
  | _ => none

/-- The offset of a fault. -/
def faultAt (o : Out) : Option Nat :=
  match o with
  | .fault (.uninitRead k) => some k
  | _ => none

/-- The bytes `B lo`, …, written one after the other. -/
def bufFrom (B : Nat → Byte) (lo n : Nat) : Memory := (List.range' lo n).map fun (k : Nat) => (k, B k)

/-- Zero bytes written at the offsets below `n`. -/
def zeros (n : Nat) : Memory := bufFrom (fun _ => 0#8) 0 n

/-- The state after reset with these bytes written. -/
def withBuf (m : Memory) : State := { State.reset with buf := m }

/-- A pending command with its live registers as rule R34 leaves them. -/
def busyAt (w off len avail acc : Word) (m : Memory) : State :=
  { State.reset with cmd := w, argOff := off, argLen := len, avail := avail, edcAcc := acc,
                     engine := .busy ⟨w, off, len, avail, acc⟩, buf := m }

/-- The NOP pending. -/
def busyNop : State := busyAt 0#32 0#32 0#32 0#32 0#32 []

/-- One step of the host's access from state `s`. -/
def hostStep (d : Descriptor) (v : Word) (s : State) : Out := step { s with inputs := [.access d v] }

theorem read_bufFrom (B : Nat → Byte) (lo n k : Nat) :
    (bufFrom B lo n).read k = if lo ≤ k ∧ k < lo + n then some (B k) else none := by
  induction n generalizing lo with
  | zero => simp [bufFrom]
  | succ n ih =>
    have e : bufFrom B lo (n + 1) = (lo, B lo) :: bufFrom B (lo + 1) n := by simp [bufFrom, List.range'_succ]
    rw [e, Memory.read_cons, ih]
    by_cases h : lo = k
    · subst h; simp
    · by_cases h2 : lo + 1 ≤ k ∧ k < lo + 1 + n
      · have h3 : lo ≤ k ∧ k < lo + (n + 1) := by omega
        simp [h, h2, h3]
      · have h3 : ¬ (lo ≤ k ∧ k < lo + (n + 1)) := by omega
        rw [if_neg h, if_neg h2, if_neg h3]

theorem read_zeros {n k : Nat} (h : k < n) : (zeros n).read k = some 0#8 := by simp [zeros, read_bufFrom, h]

theorem read_zeros_none {n k : Nat} (h : n ≤ k) : (zeros n).read k = none := by
  rw [zeros, read_bufFrom, if_neg (by omega)]

theorem wf_bufFrom (B : Nat → Byte) (lo n : Nat) (h : lo + n ≤ 2352) : Memory.wfFrom lo (bufFrom B lo n) = true := by
  induction n generalizing lo with
  | zero => rfl
  | succ n ih =>
    have e : bufFrom B lo (n + 1) = (lo, B lo) :: bufFrom B (lo + 1) n := by simp [bufFrom, List.range'_succ]
    have h2 : lo < Config.bufSize := by show lo < 2352; omega
    simp [e, Memory.wfFrom, h2, ih (lo + 1) (by omega)]

/-! ### WellFormed refuses (30_encoding.md R83, R79, R57) -/

theorem test_wf_rd8Table_below : WellFormed (.rd8Table 0x3FF#13) = false := by decide
theorem test_wf_rd8Table_above : WellFormed (.rd8Table 0xA00#13) = false := by decide
theorem test_wf_rd16Table_range : WellFormed (.rd16Table 0xA00#13) = false := by decide
theorem test_wf_rd16Table_aligned : WellFormed (.rd16Table 0x401#13) = false := by decide
theorem test_wf_rd32Table_range : WellFormed (.rd32Table 0x3FC#13) = false := by decide
theorem test_wf_rd32Table_aligned : WellFormed (.rd32Table 0x402#13) = false := by decide
theorem test_wf_rd8Buf_range : WellFormed (.rd8Buf 0x930#12) = false := by decide
theorem test_wf_rd16Buf_range : WellFormed (.rd16Buf 0x930#12) = false := by decide
theorem test_wf_rd16Buf_aligned : WellFormed (.rd16Buf 0x92F#12) = false := by decide
theorem test_wf_rd32Buf_range : WellFormed (.rd32Buf 0x930#12) = false := by decide
theorem test_wf_rd32Buf_aligned : WellFormed (.rd32Buf 0x92E#12) = false := by decide
theorem test_wf_wr8Buf_range : WellFormed (.wr8Buf 0xFFF#12 0#8) = false := by decide
theorem test_wf_wr16Buf_range : WellFormed (.wr16Buf 0x930#12 0#16) = false := by decide
theorem test_wf_wr16Buf_aligned : WellFormed (.wr16Buf 0x001#12 0#16) = false := by decide
theorem test_wf_wr32Buf_range : WellFormed (.wr32Buf 0x930#12 0#32) = false := by decide
theorem test_wf_wr32Buf_aligned : WellFormed (.wr32Buf 0x002#12 0#32) = false := by decide
theorem test_wf_illegalCmd_legal : WellFormed (.illegalCmd 0x46#32) = false := by decide
theorem test_wf_illegalAccess_register : WellFormed (.illegalAccess 0x4008#16) = false := by decide
theorem test_wf_illegalAccess_port : WellFormed (.illegalAccess 0x8018#16) = false := by decide
theorem test_wf_illegalAccess_table : WellFormed (.illegalAccess 0x2902#16) = false := by decide
theorem test_wf_illegalAccess_buffer : WellFormed (.illegalAccess 0xD92C#16) = false := by decide

/-! ### Decoding, words written out from 30_encoding.md R75, R76, R82 and R83

A command word is `reserved[31:7] M1[6] VIEW[5] ZA[4] OP[3:0]`; a descriptor is `W[15] SZ[14:13] OFF[12:0]`. -/

theorem test_decode_nop : decode (.cmd32 0b0000000_0_00_0000#32) = .nop := by decide
theorem test_decode_edcBlock : decode (.cmd32 0b0_00_0001#32) = .edcBlock := by decide
theorem test_decode_edcCompare : decode (.cmd32 0b0_00_0010#32) = .edcCompare := by decide
theorem test_decode_eccVerify : decode (.cmd32 0b0_00_0011#32) = .eccVerify false false := by decide
theorem test_decode_eccVerify_za : decode (.cmd32 0b0_01_0011#32) = .eccVerify true false := by decide
theorem test_decode_eccVerify_view : decode (.cmd32 0b0_10_0011#32) = .eccVerify false true := by decide
theorem test_decode_eccVerify_both : decode (.cmd32 0b0_11_0011#32) = .eccVerify true true := by decide
theorem test_decode_syncDetect : decode (.cmd32 0b0_00_0100#32) = .syncDetect := by decide
theorem test_decode_subhdrCheck : decode (.cmd32 0b0_00_0101#32) = .subhdrCheck := by decide
theorem test_decode_classify : decode (.cmd32 0b0_00_0110#32) = .classify false := by decide
theorem test_decode_classify_m1 : decode (.cmd32 0b1_00_0110#32) = .classify true := by decide
/-- The illegal words of T-ERR-1. -/
theorem test_decode_illegalCmd :
    decode (.cmd32 0x7#32) = .illegalCmd 0x7#32
      ∧ decode (.cmd32 0xF#32) = .illegalCmd 0xF#32
      ∧ decode (.cmd32 0x80#32) = .illegalCmd 0x80#32
      ∧ decode (.cmd32 0x14#32) = .illegalCmd 0x14#32
      ∧ decode (.cmd32 0x24#32) = .illegalCmd 0x24#32
      ∧ decode (.cmd32 0x43#32) = .illegalCmd 0x43#32
      ∧ decode (.cmd32 0x16#32) = .illegalCmd 0x16#32
      ∧ decode (.cmd32 0x53#32) = .illegalCmd 0x53#32
      ∧ decode (.cmd32 0x80000000#32) = .illegalCmd 0x80000000#32 := by decide
theorem test_decode_rd32Id : decode (.acc16 0b0_10_0000000000000#16 0#32) = .rd32Id := by decide
theorem test_decode_rd32Cmd : decode (.acc16 0b0_10_0000000000100#16 0#32) = .rd32Cmd := by decide
theorem test_decode_rd32Status : decode (.acc16 0b0_10_0000000001000#16 0#32) = .rd32Status := by decide
theorem test_decode_rd32Errcode : decode (.acc16 0b0_10_0000000001100#16 0#32) = .rd32Errcode := by decide
theorem test_decode_rd32Result : decode (.acc16 0b0_10_0000000010000#16 0#32) = .rd32Result := by decide
theorem test_decode_rd32EdcAcc : decode (.acc16 0b0_10_0000000010100#16 0#32) = .rd32EdcAcc := by decide
theorem test_decode_rd32EdcData : decode (.acc16 0b0_10_0000000011000#16 0#32) = .rd32EdcData := by decide
theorem test_decode_rd32ArgOff : decode (.acc16 0b0_10_0000000011100#16 0#32) = .rd32ArgOff := by decide
theorem test_decode_rd32ArgLen : decode (.acc16 0b0_10_0000000100000#16 0#32) = .rd32ArgLen := by decide
theorem test_decode_rd32Avail : decode (.acc16 0b0_10_0000000100100#16 0#32) = .rd32Avail := by decide
theorem test_decode_rd32IrqEn : decode (.acc16 0b0_10_0000000101000#16 0#32) = .rd32IrqEn := by decide
theorem test_decode_rd8EdcData : decode (.acc16 0b0_00_0000000011000#16 0#32) = .rd8EdcData := by decide
theorem test_decode_rd16EdcData : decode (.acc16 0b0_01_0000000011000#16 0#32) = .rd16EdcData := by decide
theorem test_decode_wr32Cmd : decode (.acc16 0b1_10_0000000000100#16 0x46#32) = .wr32Cmd 0x46#32 := by decide
theorem test_decode_wr32Status : decode (.acc16 0b1_10_0000000001000#16 2#32) = .wr32Status 2#32 := by decide
theorem test_decode_wr32Errcode : decode (.acc16 0b1_10_0000000001100#16 5#32) = .wr32Errcode 5#32 := by decide
theorem test_decode_wr32EdcAcc : decode (.acc16 0b1_10_0000000010100#16 5#32) = .wr32EdcAcc 5#32 := by decide
theorem test_decode_wr32ArgOff : decode (.acc16 0b1_10_0000000011100#16 5#32) = .wr32ArgOff 5#32 := by decide
theorem test_decode_wr32ArgLen : decode (.acc16 0b1_10_0000000100000#16 5#32) = .wr32ArgLen 5#32 := by decide
theorem test_decode_wr32Avail : decode (.acc16 0b1_10_0000000100100#16 5#32) = .wr32Avail 5#32 := by decide
theorem test_decode_wr32IrqEn : decode (.acc16 0b1_10_0000000101000#16 3#32) = .wr32IrqEn 3#32 := by decide
theorem test_decode_wr8EdcData : decode (.acc16 0b1_00_0000000011000#16 0x44332211#32) = .wr8EdcData 0x11#8 := by decide
theorem test_decode_wr16EdcData : decode (.acc16 0b1_01_0000000011000#16 0x44332211#32) = .wr16EdcData 0x2211#16 := by decide
theorem test_decode_wr32EdcData : decode (.acc16 0b1_10_0000000011000#16 0x44332211#32) = .wr32EdcData 0x44332211#32 := by decide
theorem test_decode_rd8Table : decode (.acc16 0b0_00_0100010000000#16 0#32) = .rd8Table 0x880#13 := by decide
theorem test_decode_rd16Table : decode (.acc16 0b0_01_0100100000000#16 0#32) = .rd16Table 0x900#13 := by decide
theorem test_decode_rd32Table : decode (.acc16 0b0_10_0010000000100#16 0#32) = .rd32Table 0x404#13 := by decide
theorem test_decode_rd8Buf : decode (.acc16 0b0_00_1100100101111#16 0#32) = .rd8Buf 0x92F#12 := by decide
theorem test_decode_rd16Buf : decode (.acc16 0b0_01_1100100101110#16 0#32) = .rd16Buf 0x92E#12 := by decide
theorem test_decode_rd32Buf : decode (.acc16 0b0_10_1100100101100#16 0#32) = .rd32Buf 0x92C#12 := by decide
theorem test_decode_wr8Buf : decode (.acc16 0b1_00_1000000000001#16 0x44332211#32) = .wr8Buf 1#12 0x11#8 := by decide
theorem test_decode_wr16Buf : decode (.acc16 0b1_01_1000000000010#16 0x44332211#32) = .wr16Buf 2#12 0x2211#16 := by decide
theorem test_decode_wr32Buf : decode (.acc16 0b1_10_1000000000100#16 0x44332211#32) = .wr32Buf 4#12 0x44332211#32 := by decide
/-- The illegal accesses of T-HOST-3, T-HOST-4, T-HOST-5, T-HOST-8, T-HOST-9 and T-HOST-11, and SZ = 3. -/
theorem test_decode_illegalAccess :
    decode (.acc16 0b1_10_0000000000000#16 0#32) = .illegalAccess 0b1_10_0000000000000#16
      ∧ decode (.acc16 0b1_10_0000000010000#16 0#32) = .illegalAccess 0b1_10_0000000010000#16
      ∧ decode (.acc16 0b0_01_0000000001000#16 0#32) = .illegalAccess 0b0_01_0000000001000#16
      ∧ decode (.acc16 0b1_10_1000000000010#16 0#32) = .illegalAccess 0b1_10_1000000000010#16
      ∧ decode (.acc16 0b1_10_1100100110000#16 0#32) = .illegalAccess 0b1_10_1100100110000#16
      ∧ decode (.acc16 0b1_00_0100000000000#16 0#32) = .illegalAccess 0b1_00_0100000000000#16
      ∧ decode (.acc16 0b0_10_0000000101100#16 0#32) = .illegalAccess 0b0_10_0000000101100#16
      ∧ decode (.acc16 0b1_00_0000000011001#16 0#32) = .illegalAccess 0b1_00_0000000011001#16
      ∧ decode (.acc16 0b0_11_0000000000000#16 0#32) = .illegalAccess 0b0_11_0000000000000#16 := by decide

/-- Bits numbered as spec/opcode_table.json numbers them (log entry 16). -/
theorem test_decodeTableWord :
    decodeTableWord 32 0x13 = some (.eccVerify true false)
      ∧ decodeTableWord 16 0xC020 = some (.wr32ArgLen 0#32)
      ∧ decodeTableWord 48 0x0009_2348_C020 = some (.wr32ArgLen 0x00092348#32) := by decide

/-! ### Tables (40_tables.md R104 to R107) -/

theorem test_edcLut : (List.range 8).map (fun (i : Nat) => edcLut (BitVec.ofNat 8 i)) =
    [0x00000000#32, 0x90910101#32, 0x91210201#32, 0x01B00300#32, 0x92410401#32, 0x02D00500#32, 0x03600600#32, 0x93F10701#32] := by
  decide
theorem test_edcLut_high : (List.range' 0x90 8).map (fun (i : Nat) => edcLut (BitVec.ofNat 8 i)) =
    [0x41009000#32, 0xD1919101#32, 0xD0219201#32, 0x40B09300#32, 0xD3419401#32, 0x43D09500#32, 0x42609600#32, 0xD2F19701#32] := by
  decide
theorem test_eccF : (List.range' 0x78 16).map (fun (i : Nat) => eccF (BitVec.ofNat 8 i)) =
    [0xF0#8, 0xF2#8, 0xF4#8, 0xF6#8, 0xF8#8, 0xFA#8, 0xFC#8, 0xFE#8, 0x1D#8, 0x1F#8, 0x19#8, 0x1B#8, 0x15#8, 0x17#8,
     0x11#8, 0x13#8] := by decide
theorem test_eccB : (List.range 16).map (fun (i : Nat) => eccB (BitVec.ofNat 8 i)) =
    [0x00#8, 0xF4#8, 0xF5#8, 0x01#8, 0xF7#8, 0x03#8, 0x02#8, 0xF6#8, 0xF3#8, 0x07#8, 0x06#8, 0xF2#8, 0x04#8, 0xF0#8,
     0xF1#8, 0x05#8] := by decide

/-! ### EDC (95_test_vectors.md section 3) -/

/-- "123456789" at offset 0. -/
def digits : Memory := bufFrom (fun k => BitVec.ofNat 8 (0x31 + k)) 0 9

/-- T-EDC-5. -/
theorem test_edcStep : edcStep 0xFFFFFFFF#32 0x00#8 = 0x708F00FF#32 := by decide
/-- T-EDC-13. -/
theorem test_edcUpdate :
    edcUpdate 0xFFFFFFFF#32 [0x31#8, 0x32#8, 0x33#8, 0x34#8, 0x35#8, 0x36#8, 0x37#8, 0x38#8, 0x39#8] = 0xFEDF9DFA#32 := by
  decide
/-- T-EDC-14. -/
theorem test_edcBlock : got (fun t => (t.edcAcc, t.result, t.status)) (step (busyAt 1#32 0#32 9#32 0#32 0#32 digits))
    = some (0x6EC2EDC4#32, 0#32, 2#32) := by decide
/-- T-EDC-16, the sum past 2^32. -/
theorem test_edcBlock_range :
    got (fun t => (t.errcode, t.status, t.edcAcc))
      (hostStep 0xC004#16 1#32 { State.reset with argOff := 0xFFFFFFFF#32, argLen := 1#32, edcAcc := 7#32 })
      = some (2#4, 6#32, 7#32) := by decide
/-- T-EDC-18, on the EDC of S1 alone. -/
theorem test_edcCompare :
    got State.result (step (busyAt 2#32 0x810#32 0#32 0#32 0x2B6813C5#32
      [(0x810, 0xC5#8), (0x811, 0x13#8), (0x812, 0x68#8), (0x813, 0x2B#8)])) = some 1#32 := by decide
/-- T-EDC-19, one byte past the end. -/
theorem test_edcCompare_range :
    got (fun t => (t.errcode, t.status)) (hostStep 0xC004#16 2#32 { State.reset with argOff := 2349#32 })
      = some (2#4, 6#32) := by decide
/-- T-EDC-10. -/
theorem test_wr32EdcData : got State.edcAcc (hostStep 0xC018#16 0x44332211#32 State.reset) = some 0x7473C50B#32 := by decide
/-- T-EDC-11. -/
theorem test_wr16EdcData : got State.edcAcc (hostStep 0xA018#16 0x3231#32 State.reset) = some 0x1A3BA231#32 := by decide
/-- T-EDC-3. -/
theorem test_wr8EdcData : got State.edcAcc (hostStep 0x8018#16 0x61#32 State.reset) = some 0xA6916101#32 := by decide

/-! ### ECC (95_test_vectors.md section 4) -/

/-- T-ECC-14. -/
theorem test_eccIndices :
    eccIndices Config.pCode 5 (eccStart Config.pCode 0) = [0, 86, 172, 258, 344]
      ∧ eccIndices Config.pCode 3 (eccStart Config.pCode 1) = [1, 87, 173]
      ∧ eccIndices Config.qCode 5 (eccStart Config.qCode 0) = [0, 88, 176, 264, 352]
      ∧ eccIndices Config.qCode 3 (eccStart Config.qCode 1) = [1, 89, 177]
      ∧ eccIndices Config.qCode 4 (eccStart Config.qCode 2) = [86, 174, 262, 350] := by decide
/-- The fault of an unwritten read set: its lowest offset behind the address field of the whole-sector view (R134). -/
theorem test_eccVerify_fault : faultAt (step (busyAt 0x13#32 0x81C#32 0#32 0#32 0#32 (zeros 12))) = some 16 := by
  decide +kernel
/-- T-ECC-12. -/
theorem test_eccVerify_view :
    got (fun t => (t.errcode, t.status)) (hostStep 0xC004#16 0x23#32 State.reset) = some (2#4, 6#32) := by decide

/-! ### Sync and subheader (95_test_vectors.md sections 5 and 6) -/

/-- The bytes of S1 below 0x010 and at 0x810 to 0x81B (95_test_vectors.md section 2). -/
def s1Head : Memory :=
  [(0x00, 0x00#8), (0x01, 0xFF#8), (0x02, 0xFF#8), (0x03, 0xFF#8), (0x04, 0xFF#8), (0x05, 0xFF#8), (0x06, 0xFF#8),
   (0x07, 0xFF#8), (0x08, 0xFF#8), (0x09, 0xFF#8), (0x0A, 0xFF#8), (0x0B, 0x00#8), (0x0C, 0x00#8), (0x0D, 0x02#8),
   (0x0E, 0x00#8), (0x0F, 0x01#8)]
def s1Edc : Memory :=
  [(0x810, 0xC5#8), (0x811, 0x13#8), (0x812, 0x68#8), (0x813, 0x2B#8), (0x814, 0#8), (0x815, 0#8), (0x816, 0#8),
   (0x817, 0#8), (0x818, 0#8), (0x819, 0#8), (0x81A, 0#8), (0x81B, 0#8)]

/-- T-SYNC-1. -/
theorem test_syncDetect :
    got State.result (step (busyAt 4#32 0#32 0#32 0#32 0#32 (s1Head ++ s1Edc))) = some 0x39#32 := by decide
/-- T-SYNC-7. -/
theorem test_syncDetect_fault : faultAt (step (busyAt 4#32 0#32 0#32 0#32 0#32 s1Head)) = some 0x814 := by decide
/-- T-SUB-1. -/
theorem test_subhdrCheck :
    got State.result (step (busyAt 5#32 0#32 0#32 0#32 0#32
      [(0, 0#8), (1, 0#8), (2, 8#8), (3, 0#8), (4, 0#8), (5, 0#8), (6, 8#8), (7, 0#8)])) = some 1#32 := by decide
/-- T-SUB-2. -/
theorem test_subhdrCheck_s1 : got State.result (step (busyAt 5#32 0#32 0#32 0#32 0#32 s1Head)) = some 0#32 := by decide

/-! ### Classifier and NOP (95_test_vectors.md section 7) -/

/-- The P and Q parity of S1 where it is not zero (95_test_vectors.md section 2). -/
def s1Parity : Memory :=
  [(0x81D, 0xF7#8), (0x81F, 0xF5#8), (0x866, 0x52#8), (0x867, 0x35#8), (0x868, 0xB8#8), (0x869, 0x7D#8), (0x873, 0xF5#8), (0x875, 0xF4#8)]
    ++ [(0x8BC, 0x97#8), (0x8BD, 0x26#8), (0x8BE, 0xD0#8), (0x8BF, 0x56#8), (0x8C9, 0x41#8), (0x8DE, 0x2D#8), (0x8DF, 0x17#8), (0x8E0, 0x2E#8)]
    ++ [(0x8E1, 0x1B#8), (0x8E2, 0xB1#8), (0x8E3, 0x48#8), (0x8E4, 0xB2#8), (0x8E5, 0x44#8), (0x8F7, 0x65#8), (0x8F9, 0xC2#8), (0x8FB, 0xE6#8)]
    ++ [(0x8FD, 0x43#8), (0x912, 0x45#8), (0x913, 0x3C#8), (0x914, 0x53#8), (0x915, 0x75#8), (0x916, 0x33#8), (0x917, 0x2B#8), (0x918, 0x25#8)]
    ++ [(0x919, 0x62#8), (0x92B, 0x90#8), (0x92D, 0xC1#8), (0x92F, 0x12#8)]

/-- The bytes of S1 (95_test_vectors.md section 2). -/
def s1 (j : Int) : Byte :=
  let k := j.toNat
  if k < 0x10 then (s1Head.read k).getD 0#8
  else if k < 0x810 then 0#8
  else if k < 0x81C then (s1Edc.read k).getD 0#8
  else (s1Parity.read k).getD 0#8

/-- T-CLS-3, on the bytes of S1. -/
theorem test_classify_s1 : classify s1 2352 true = ⟨.mode1, true, false, false⟩ := by decide +kernel
/-- T-ECC-2 and T-ECC-8, on the groups that hold the address of S1. -/
theorem test_eccGroupOk_s1 :
    eccGroupOk s1 0 false Config.pCode 0x81C 1 = true ∧ eccGroupOk s1 0 false Config.qCode 0x8C8 1 = true
      ∧ eccGroupOk s1 0 true Config.pCode 0x81C 1 = false := by decide +kernel
/-- T-CLS-12. -/
theorem test_classify_short :
    got (fun t => (t.result, t.status)) (step (busyAt 6#32 0#32 0#32 2335#32 0#32 [])) = some (0#32, 2#32) := by decide
/-- T-CLS-13. -/
theorem test_classify_m1 :
    got (fun t => (t.errcode, t.result, t.status)) (hostStep 0xC004#16 0x46#32 { State.reset with avail := 2351#32 })
      = some (3#4, 0#32, 6#32) := by decide
/-- T-NOP-1, busy and complete. -/
theorem test_nop :
    got State.status (hostStep 0xC004#16 0#32 State.reset) = some 1#32
      ∧ got (fun t => (t.status, t.result)) (step busyNop) = some (2#32, 0#32) := by decide

/-! ### Errors (95_test_vectors.md section 8) -/

/-- T-ERR-1. -/
theorem test_illegalCmd :
    got (fun t => (t.errcode, t.status, t.cmd)) (hostStep 0xC004#16 0x80000000#32 { State.reset with result := 5#32 })
      = some (1#4, 6#32, 0x80000000#32) := by decide
/-- T-ERR-2. -/
theorem test_reject_sticky :
    got (fun t => (t.errcode, t.cmd, t.status))
      (hostStep 0xC004#16 2#32 { State.reset with errcode := 1#4, argOff := 2349#32 }) = some (1#4, 2#32, 6#32) := by decide
/-- T-ERR-3. -/
theorem test_wr32Cmd_busy :
    got (fun t => (t.cmd, t.errcode, t.status)) (hostStep 0xC004#16 1#32 busyNop) = some (0#32, 4#4, 5#32) := by decide
/-- T-ERR-4. -/
theorem test_protected_busy :
    got (fun t => (t.edcAcc, t.errcode)) (hostStep 0xC014#16 5#32 busyNop) = some (0#32, 4#4)
      ∧ got (fun t => (t.buf, t.errcode)) (hostStep 0x9000#16 1#32 busyNop) = some ([], 4#4)
      ∧ got (fun t => (t.edcAcc, t.errcode)) (hostStep 0x8018#16 1#32 busyNop) = some (0#32, 4#4) := by decide
/-- T-ERR-5. -/
theorem test_access_before_busy :
    got (fun t => (t.errcode, t.status)) (hostStep 0xC006#16 1#32 busyNop) = some (5#4, 5#32) := by decide
/-- T-ERR-6. -/
theorem test_wr32Status :
    got State.status (hostStep 0xC008#16 0xD#32 { State.reset with done := true, errcode := 2#4 }) = some 6#32
      ∧ got State.status (hostStep 0xC008#16 2#32 { State.reset with done := true, errcode := 2#4 }) = some 4#32 := by decide
/-- T-ERR-7. -/
theorem test_wr32Errcode :
    got (fun t => (t.errcode, t.done)) (hostStep 0xC00C#16 5#32 { State.reset with done := true, errcode := 2#4 })
      = some (0#4, true) := by decide

/-! ### Host accesses (95_test_vectors.md section 9) -/

/-- A state in which every register holds a value of its own. -/
def marked : State :=
  { State.reset with cmd := 0x11111111#32, done := true, errcode := 9#4, result := 0x222#32, edcAcc := 0x33333333#32,
                     argOff := 0x44444444#32, argLen := 0x55555555#32, avail := 0x66666666#32, irqEn := 2#2 }

/-- T-HOST-1. -/
theorem test_rd32Id : got State.rdata (hostStep 0x4000#16 0#32 State.reset) = some (some 0x004D4345#32) := by decide
theorem test_rd32Cmd : got State.rdata (hostStep 0x4004#16 0#32 marked) = some (some 0x11111111#32) := by decide
/-- STATUS of T-HOST-13. -/
theorem test_rd32Status : got State.rdata (hostStep 0x4008#16 0#32 marked) = some (some 0xE#32) := by decide
theorem test_rd32Errcode : got State.rdata (hostStep 0x400C#16 0#32 marked) = some (some 9#32) := by decide
theorem test_rd32Result : got State.rdata (hostStep 0x4010#16 0#32 marked) = some (some 0x222#32) := by decide
theorem test_rd32EdcAcc : got State.rdata (hostStep 0x4014#16 0#32 marked) = some (some 0x33333333#32) := by decide
theorem test_rd32EdcData : got State.rdata (hostStep 0x4018#16 0#32 marked) = some (some 0#32) := by decide
theorem test_rd32ArgOff : got State.rdata (hostStep 0x401C#16 0#32 marked) = some (some 0x44444444#32) := by decide
theorem test_rd32ArgLen : got State.rdata (hostStep 0x4020#16 0#32 marked) = some (some 0x55555555#32) := by decide
theorem test_rd32Avail : got State.rdata (hostStep 0x4024#16 0#32 marked) = some (some 0x66666666#32) := by decide
theorem test_rd32IrqEn : got State.rdata (hostStep 0x4028#16 0#32 marked) = some (some 2#32) := by decide
/-- T-HOST-10. -/
theorem test_rd8EdcData :
    got (fun t => (t.rdata, t.errcode)) (hostStep 0x0018#16 0#32 State.reset) = some (some 0#32, 0#4) := by decide
theorem test_rd16EdcData :
    got (fun t => (t.rdata, t.errcode)) (hostStep 0x2018#16 0#32 State.reset) = some (some 0#32, 0#4) := by decide
theorem test_wr32EdcAcc : got State.edcAcc (hostStep 0xC014#16 0x1234#32 marked) = some 0x1234#32 := by decide
theorem test_wr32ArgOff : got State.argOff (hostStep 0xC01C#16 0x92D#32 marked) = some 0x92D#32 := by decide
theorem test_wr32ArgLen : got State.argLen (hostStep 0xC020#16 0x810#32 marked) = some 0x810#32 := by decide
theorem test_wr32Avail : got State.avail (hostStep 0xC024#16 0x920#32 marked) = some 0x920#32 := by decide
/-- T-HOST-13, the last enable write, and reserved bits of the data. -/
theorem test_wr32IrqEn :
    got State.status (hostStep 0xC028#16 0xFFFFFFFC#32 marked) = some 6#32
      ∧ got State.irqEn (hostStep 0xC028#16 0xFFFFFFFF#32 marked) = some 3#2 := by decide
/-- T-HOST-7. -/
theorem test_rd32Table :
    got State.rdata (hostStep 0x4404#16 0#32 State.reset) = some (some 0x90910101#32)
      ∧ got State.rdata (hostStep 0x47FC#16 0#32 State.reset) = some (some 0x7070FF00#32) := by decide
theorem test_rd8Table :
    got State.rdata (hostStep 0x0880#16 0#32 State.reset) = some (some 0x1D#32)
      ∧ got State.rdata (hostStep 0x09FF#16 0#32 State.reset) = some (some 0x55#32) := by decide
theorem test_rd16Table : got State.rdata (hostStep 0x2900#16 0#32 State.reset) = some (some 0xF400#32) := by decide
/-- T-HOST-2. -/
theorem test_rd8Buf_fault : faultAt (hostStep 0x1000#16 0#32 State.reset) = some 0 := by decide
theorem test_rd8Buf : got State.rdata (hostStep 0x1001#16 0#32 (withBuf s1Head)) = some (some 0xFF#32) := by decide
theorem test_rd16Buf : got State.rdata (hostStep 0x300A#16 0#32 (withBuf s1Head)) = some (some 0x00FF#32) := by decide
/-- T-HOST-14, and a word whose third byte alone is unwritten. -/
theorem test_rd32Buf :
    got State.rdata (hostStep 0x5000#16 0#32 (withBuf s1Head)) = some (some 0xFFFFFF00#32)
      ∧ faultAt (hostStep 0x5000#16 0#32 (withBuf [(0, 0#8), (1, 0#8), (3, 0#8)])) = some 2 := by decide
theorem test_wr8Buf : got State.buf (hostStep 0x9003#16 0x1FF#32 (withBuf [(2, 1#8), (4, 2#8)]))
    = some [(2, 1#8), (3, 0xFF#8), (4, 2#8)] := by decide
/-- T-HOST-6. -/
theorem test_wr16Buf :
    got State.buf (hostStep 0xB92E#16 0xAABB#32
      (withBuf [(0x92C, 0x44#8), (0x92D, 0x33#8), (0x92E, 0x22#8), (0x92F, 0x11#8)]))
      = some [(0x92C, 0x44#8), (0x92D, 0x33#8), (0x92E, 0xBB#8), (0x92F, 0xAA#8)] := by decide
theorem test_wr32Buf : got State.buf (hostStep 0xD92C#16 0x11223344#32 State.reset)
    = some [(0x92C, 0x44#8), (0x92D, 0x33#8), (0x92E, 0x22#8), (0x92F, 0x11#8)] := by decide
/-- T-HOST-3 and T-HOST-4. -/
theorem test_illegalAccess :
    got (fun t => (t.errcode, t.rdata)) (hostStep 0xC000#16 1#32 State.reset) = some (5#4, none)
      ∧ got (fun t => (t.errcode, t.rdata)) (hostStep 0x2008#16 0#32 { State.reset with done := true })
        = some (5#4, some 0#32) := by decide
/-- T-HOST-12, the acknowledged interrupt. -/
theorem test_irq_ack :
    got (fun t => (t.status, t.irq)) (hostStep 0xC008#16 2#32 { State.reset with done := true, irqEn := 1#2 })
      = some (0#32, false) := by decide
/-- T-HOST-15. -/
theorem test_reset :
    got (fun t => (t.status, t.edcAcc, t.buf, t.engine))
      (step { busyAt 1#32 0#32 9#32 0#32 7#32 digits with inputs := [.reset] }) = some (0#32, 0#32, [], .idle) := by decide
/-- What withFetchWord places runs next: an access, a command's issue, a command's completion (log entry 8). -/
theorem test_withFetchWord :
    got State.rdata (step (State.reset.withFetchWord 16 0x4000)) = some (some 0x004D4345#32)
      ∧ got State.status (step (State.reset.withFetchWord 32 0x4)) = some 1#32
      ∧ got State.status (step (busyNop.withFetchWord 32 0x0)) = some 2#32 := by decide

/-! ### The hypotheses of the statements are met

One theorem for each clause of each statement that has hypotheses, at the ends of its range. -/

theorem inv_busyNop : Inv busyNop where
  bufCanonical := by decide
  errcodeProduced := by decide
  resultReserved := by decide
  pendingFrozen := fun p h => by cases h; rfl
  pendingAccepted := fun p h => by cases h; decide
  doneClearWhileBusy := fun p h => rfl

theorem inv_zeros : Inv (withBuf (zeros 2352)) where
  bufCanonical := wf_bufFrom _ 0 2352 (by omega)
  errcodeProduced := by decide
  resultReserved := by decide
  pendingFrozen := fun p h => by cases h
  pendingAccepted := fun p h => by cases h
  doneClearWhileBusy := fun p h => by cases h

theorem witness_DecodeEncodeRoundTrip :
    WellFormed (.rd8Table 0x9FF#13) = true ∧ WellFormed (.rd32Table 0x400#13) = true ∧ WellFormed (.rd8Buf 0x92F#12) = true
      ∧ WellFormed (.wr16Buf 0x92E#12 0xFFFF#16) = true ∧ WellFormed (.wr32Buf 0x92C#12 0xFFFFFFFF#32) = true
      ∧ WellFormed (.illegalCmd 0xFFFFFFFF#32) = true ∧ WellFormed (.illegalAccess 0x6000#16) = true := by decide

theorem legalBits_iff (w : Word) : LegalBits w ↔
    w.toNat / 128 = 0 ∧ w.toNat % 16 ≤ 6 ∧ (w.toNat / 16 % 4 = 0 ∨ w.toNat % 16 = 3)
      ∧ (w.toNat / 64 % 2 = 0 ∨ w.toNat % 16 = 6) := Iff.rfl

/-- The legal word on each side of a bound, and the first illegal one. -/
theorem witness_IllegalWords :
    State.reset.engine = .idle ∧ ¬ LegalBits 7#32 ∧ ¬ LegalBits 0x80#32 ∧ ¬ LegalBits 0x16#32 ∧ ¬ LegalBits 0x43#32
      ∧ LegalBits 0x46#32 ∧ LegalBits 0x33#32 := by
  refine ⟨rfl, ?_, ?_, ?_, ?_, ?_, ?_⟩ <;> rw [legalBits_iff] <;> decide

theorem legalAccess_iff (w n off : Nat) : LegalAccess w n off ↔
    (off < 0x02C ∧ n = 4 ∧ off % 4 = 0 ∧ ¬ (w = 1 ∧ (off = 0x000 ∨ off = 0x010)))
      ∨ (off = 0x018 ∧ (n = 1 ∨ n = 2)) ∨ (w = 0 ∧ 0x400 ≤ off ∧ off < 0xA00 ∧ off % n = 0)
      ∨ (0x1000 ≤ off ∧ off < 0x1930 ∧ off % n = 0) := Iff.rfl

/-- Illegal reads and writes at the ends of the regions. -/
theorem witness_IllegalAccesses :
    ¬ LegalAccess 0 4 0x02C ∧ ¬ LegalAccess 1 4 0x010 ∧ ¬ LegalAccess 0 1 0x3FF ∧ ¬ LegalAccess 1 1 0x400
      ∧ ¬ LegalAccess 0 1 0xA00 ∧ ¬ LegalAccess 0 2 0xFFF ∧ ¬ LegalAccess 1 1 0x1930 ∧ ¬ LegalAccess 0 8 8191
      ∧ LegalAccess 0 4 0x028 ∧ LegalAccess 0 1 0x9FF ∧ LegalAccess 1 1 0x192F := by
  refine ⟨?_, ?_, ?_, ?_, ?_, ?_, ?_, ?_, ?_, ?_, ?_⟩ <;> rw [legalAccess_iff] <;> decide

theorem witness_StepRuns_access :
    ({ State.reset with inputs := [.access 0xC004#16 0#32] } : State).fault = none
      ∧ ({ State.reset with inputs := [.access 0xC004#16 0#32] } : State).inputs = .access 0xC004#16 0#32 :: [] := ⟨rfl, rfl⟩
theorem witness_StepRuns_engine :
    ({ busyNop with inputs := [.engine] } : State).fault = none
      ∧ ({ busyNop with inputs := [.engine] } : State).inputs = .engine :: []
      ∧ ({ busyNop with inputs := [.engine] } : State).engine = .busy ⟨0#32, 0#32, 0#32, 0#32, 0#32⟩ := ⟨rfl, rfl, rfl⟩
theorem witness_StepRuns_exhausted :
    busyNop.fault = none ∧ busyNop.inputs = [] ∧ busyNop.engine = .busy ⟨0#32, 0#32, 0#32, 0#32, 0#32⟩ := ⟨rfl, rfl, rfl⟩
theorem witness_StepRuns_idle :
    ({ State.reset with inputs := [.engine] } : State).fault = none
      ∧ ({ State.reset with inputs := [.engine] } : State).inputs = .engine :: []
      ∧ ({ State.reset with inputs := [.engine] } : State).engine = .idle := ⟨rfl, rfl, rfl⟩
theorem witness_StepRuns_quiet : State.reset.fault = none ∧ State.reset.inputs = [] ∧ State.reset.engine = .idle := ⟨rfl, rfl, rfl⟩

theorem witness_WithFetchWord_idle : marked.fault = none ∧ marked.engine = .idle := ⟨rfl, rfl⟩
theorem witness_WithFetchWord_busy : busyNop.fault = none ∧ busyNop.engine = .busy ⟨0#32, 0#32, 0#32, 0#32, 0#32⟩ := ⟨rfl, rfl⟩

theorem witness_CommandWriteIsItsCommand : marked.engine = .idle := rfl

theorem witness_ResetEvent :
    ({ busyNop with inputs := [.reset, .engine] } : State).inputs = .reset :: [.engine]
      ∧ ({ busyNop with inputs := [.reset, .engine] } : State).fault = none := ⟨rfl, rfl⟩
theorem witness_ResetEvent_faulted :
    ({ State.reset with inputs := [.reset], fault := some 2351 } : State).inputs = .reset :: []
      ∧ ({ State.reset with inputs := [.reset], fault := some 2351 } : State).fault = some 2351 := ⟨rfl, rfl⟩

theorem witness_FaultedRun_recorded : ({ State.reset with fault := some 0 } : State).fault = some 0 := rfl
theorem witness_FaultedRun_now :
    step { State.reset with inputs := [.access 0x192F#16 0#32] } = .fault (.uninitRead 2351) := rfl

theorem witness_RegisterReads_busy : true = true ↔ IsBusy busyNop := ⟨fun _ => ⟨_, rfl⟩, fun _ => rfl⟩
theorem witness_RegisterReads_idle : false = true ↔ IsBusy marked := ⟨fun h => (by cases h), fun ⟨_, h⟩ => (by cases h)⟩

theorem witness_TableReads :
    255 < 256 ∧ 1 < 2 ∧ 3 < 4 ∧ 127 < 128 ∧ 63 < 64 ∧ 0x9FF < 0xA00 ∧ 0x9FE % 2 = 0 ∧ 0x9FC % 4 = 0 := by decide

theorem witness_BufferReads_written :
    2351 < 2352 ∧ (zeros 2352).read 2351 = some 0#8 ∧ 2350 % 2 = 0 ∧ (zeros 2352).read 2350 = some 0#8
      ∧ 2348 % 4 = 0 ∧ (zeros 2352).read 2348 = some 0#8 ∧ (zeros 2352).read 2349 = some 0#8 := by
  simp [read_zeros]
theorem witness_BufferReads_unwritten :
    LowestUnwritten (zeros 2350) [2351] 2351 ∧ LowestUnwritten (zeros 2351) [2350, 2351] 2351
      ∧ LowestUnwritten (zeros 2350) [2348, 2349, 2350, 2351] 2350 ∧ LowestUnwritten (zeros 0) [0, 1, 2, 3] 0 := by
  refine ⟨⟨by simp, read_zeros_none (by omega), ?_⟩, ⟨by simp, read_zeros_none (by omega), ?_⟩,
    ⟨by simp, read_zeros_none (by omega), ?_⟩, ⟨by simp, read_zeros_none (by omega), ?_⟩⟩ <;>
  · intro j hj hlt
    exact ⟨0#8, read_zeros (by simp at hj; omega)⟩

theorem witness_ErrcodeWrite :
    step { State.reset with errcode := 2#4, inputs := [.access 0xC00C#16 5#32] } = .next State.reset
      ∧ 2#4 ≠ 0#4 ∧ State.reset.errcode = 0#4 := ⟨rfl, by decide, rfl⟩
theorem witness_OperandWrites : marked.engine = .idle ∧ IsBusy busyNop := ⟨rfl, _, rfl⟩
theorem witness_EdcDataWrite : marked.engine = .idle ∧ IsBusy busyNop ∧ 1 < 2 ∧ 3 < 4 ∧ 0x019 ≤ 0x01B := ⟨rfl, ⟨_, rfl⟩, by decide⟩
theorem witness_BufferWrites :
    State.reset.engine = .idle ∧ IsBusy busyNop ∧ 2351 < 2352 ∧ 2350 % 2 = 0 ∧ 2348 % 4 = 0 := ⟨rfl, ⟨_, rfl⟩, by decide⟩

theorem witness_ProtectedWrites : IsBusy busyNop ∧ (∃ k v, Instr.wr32Buf 0x92C#12 5#32 = .wr32Buf k v) := ⟨⟨_, rfl⟩, _, _, rfl⟩
theorem witness_ProtectedWrites_open :
    IsBusy busyNop ∧ exec (.wr32Errcode 0#32) { busyNop with engine := .idle } = .next { busyNop with engine := .idle } :=
  ⟨⟨_, rfl⟩, rfl⟩
theorem witness_ProtectedWrites_read :
    IsBusy busyNop ∧ exec .rd32Id { busyNop with engine := .idle }
      = .next { busyNop with engine := .idle, rdata := some 0x004D4345#32 } := ⟨⟨_, rfl⟩, rfl⟩

theorem witness_CommandWrite_busy : IsBusy busyNop := ⟨_, rfl⟩
theorem witness_CommandWrite_illegal : State.reset.engine = .idle ∧ ¬ LegalBits 7#32 := ⟨rfl, by rw [legalBits_iff]; decide⟩
/-- One byte past the end. -/
theorem witness_CommandWrite_range :
    ({ State.reset with argOff := 2352#32, argLen := 1#32 } : State).engine = .idle ∧ LegalBits 1#32
      ∧ ¬ RangePasses 1#32 { State.reset with argOff := 2352#32, argLen := 1#32 } := by
  refine ⟨rfl, by rw [legalBits_iff]; decide, fun h => ?_⟩
  exact absurd (h.1 (by decide)) (by decide)
/-- One byte too few. -/
theorem witness_CommandWrite_precond :
    LegalBits 0x46#32 ∧ RangePasses 0x46#32 { State.reset with avail := 2351#32 }
      ∧ ¬ PrecondPasses 0x46#32 { State.reset with avail := 2351#32 } := by
  refine ⟨by rw [legalBits_iff]; decide, ⟨fun h => absurd h (by decide), fun h => absurd h (by decide), fun h => absurd h (by decide)⟩,
    fun h => h ⟨by decide, by decide, by decide⟩⟩
/-- The empty range at the end of the buffer, and the last four bytes. -/
theorem witness_CommandWrite_accepted :
    LegalBits 1#32 ∧ RangePasses 1#32 { State.reset with argOff := 2352#32 } ∧ PrecondPasses 1#32 { State.reset with argOff := 2352#32 }
      ∧ LegalBits 2#32 ∧ RangePasses 2#32 { State.reset with argOff := 2348#32 }
      ∧ PrecondPasses 2#32 { State.reset with argOff := 2348#32 } := by
  refine ⟨by rw [legalBits_iff]; decide, ⟨fun _ => by decide, fun h => absurd h (by decide), fun h => absurd h (by decide)⟩,
    fun h => absurd h.1 (by decide), by rw [legalBits_iff]; decide,
    ⟨fun h => absurd h (by decide), fun _ => by decide, fun h => absurd h (by decide)⟩, fun h => absurd h.1 (by decide)⟩

theorem witness_IllegalCommand : ¬ LegalBits 0xFFFFFFFF#32 ∧ State.reset.engine = .idle ∧ IsBusy busyNop :=
  ⟨by rw [legalBits_iff]; decide, rfl, _, rfl⟩
theorem witness_Nop : State.reset.engine = .idle ∧ IsBusy busyNop := ⟨rfl, _, rfl⟩

theorem witness_EdcBlock_issue :
    State.reset.engine = .idle ∧ (2352#32).toNat + (0#32).toNat ≤ 2352 ∧ 2352 < (0#32).toNat + (2353#32).toNat := by
  refine ⟨rfl, ?_, ?_⟩ <;> decide
/-- The last two bytes of the buffer. -/
theorem witness_EdcBlock_completes :
    (busyAt 1#32 2350#32 2#32 0#32 0#32 (zeros 2352)).engine = .busy ⟨1#32, 2350#32, 2#32, 0#32, 0#32⟩
      ∧ [0#8, 0#8].length = (2#32).toNat
      ∧ ∀ j b, [0#8, 0#8][j]? = some b → (zeros 2352).read ((2350#32).toNat + j) = some b := by
  refine ⟨rfl, rfl, fun j b h => ?_⟩
  match j with
  | 0 => cases h; exact read_zeros (by decide)
  | 1 => cases h; exact read_zeros (by decide)
  | _ + 2 => cases h
theorem witness_EdcBlock_fault : LowestUnwritten (zeros 2351) (List.range' (2350#32).toNat (2#32).toNat) 2351 := by
  refine ⟨by decide, read_zeros_none (by omega), fun j _ hlt => ⟨0#8, read_zeros hlt⟩⟩

theorem witness_EdcCompare_issue : State.reset.engine = .idle ∧ (2348#32).toNat + 4 ≤ 2352 ∧ 2352 < (2349#32).toNat + 4 := by
  refine ⟨rfl, ?_, ?_⟩ <;> decide
theorem witness_EdcCompare_completes :
    (busyAt 2#32 2348#32 0#32 0#32 0#32 (zeros 2352)).engine = .busy ⟨2#32, 2348#32, 0#32, 0#32, 0#32⟩
      ∧ (zeros 2352).read 2348 = some 0#8 ∧ (zeros 2352).read 2349 = some 0#8 ∧ (zeros 2352).read 2350 = some 0#8
      ∧ (zeros 2352).read 2351 = some 0#8 :=
  ⟨rfl, read_zeros (by omega), read_zeros (by omega), read_zeros (by omega), read_zeros (by omega)⟩
theorem witness_EdcCompare_fault : LowestUnwritten (zeros 2351) (List.range' (2348#32).toNat 4) 2351 := by
  refine ⟨by decide, read_zeros_none (by omega), fun j _ hlt => ⟨0#8, read_zeros hlt⟩⟩

/-- The stored parity at the very end of the buffer (T-ECC-13), and the mode-2 form (T-ECC-10). -/
theorem witness_Ecc_inRange : EccInRange (base false) false 2076 ∧ EccInRange (base true) true 0x80C := by
  constructor
  · rintro j ⟨⟨i, hi, rfl⟩ | ⟨i, hi, rfl⟩, -⟩ <;> simp [base] <;> omega
  · rintro j ⟨⟨i, hi, rfl⟩ | ⟨i, hi, rfl⟩, hz⟩ <;> simp [base] at hz ⊢ <;> omega
theorem witness_Ecc_outOfRange : ¬ EccInRange (base false) false 2077 := by
  intro h
  have := h 2352 ⟨.inr ⟨275, by omega, by simp⟩, by simp⟩
  omega
theorem witness_Ecc_completes :
    (busyAt 3#32 2076#32 0#32 0#32 0#32 (zeros 2352)).engine = .busy ⟨3#32, 2076#32, 0#32, 0#32, 0#32⟩
      ∧ EccInRange (base false) false (2076#32).toNat
      ∧ ∀ j : Nat, InReadSet (base false) false (2076#32).toNat j → (zeros 2352).read j = some ((fun (_ : Int) => 0#8) j) := by
  refine ⟨rfl, witness_Ecc_inRange.1, fun j hj => read_zeros ?_⟩
  have := witness_Ecc_inRange.1 j hj
  omega
theorem witness_Ecc_fault :
    InReadSet (base false) false 2076 (2351 : Nat) ∧ (zeros 2351).read 2351 = none
      ∧ ∀ j : Nat, j < 2351 → InReadSet (base false) false 2076 j → (zeros 2351).read j ≠ none := by
  refine ⟨⟨.inr ⟨275, by omega, by simp⟩, by simp⟩, read_zeros_none (by omega), fun j hlt _ => ?_⟩
  rw [read_zeros hlt]; simp

/-- The offsets that SYNC_DETECT reads. -/
def syncOffsets : List Nat := [0, 1, 2, 3, 4, 5, 6, 7, 8, 9, 10, 11, 15] ++ List.range' 0x814 8

theorem witness_Sync_completes :
    IsBusy (busyAt 4#32 0#32 0#32 0#32 0#32 (s1Head ++ s1Edc)) ∧ Holds (s1Head ++ s1Edc) s1 syncOffsets := by
  refine ⟨⟨_, rfl⟩, ?_⟩
  unfold Holds syncOffsets
  decide
theorem witness_Sync_fault : LowestUnwritten s1Head syncOffsets 0x814 := by
  refine ⟨by decide, by decide, fun j hj hlt => Option.isSome_iff_exists.1 ?_⟩
  revert j; unfold syncOffsets; decide
theorem witness_Sync_issue : State.reset.engine = .idle := rfl

theorem witness_Subhdr_completes :
    IsBusy (busyAt 5#32 0#32 0#32 0#32 0#32 s1Head) ∧ Holds s1Head s1 [0, 1, 2, 3, 4, 5, 6, 7] := by
  refine ⟨⟨_, rfl⟩, ?_⟩
  unfold Holds
  decide
theorem witness_Subhdr_fault : LowestUnwritten (zeros 7) [0, 1, 2, 3, 4, 5, 6, 7] 7 :=
  ⟨by decide, read_zeros_none (by omega), fun j _ hlt => ⟨0#8, read_zeros hlt⟩⟩

theorem witness_Classify_issue :
    State.reset.engine = .idle ∧ 2352 ≤ (2352#32).toNat ∧ (2351#32).toNat < 2352 := by
  refine ⟨rfl, ?_, ?_⟩ <;> decide
theorem witness_Classify_short :
    (busyAt 6#32 0#32 0#32 2335#32 0#32 []).engine = .busy ⟨6#32, 0#32, 0#32, 2335#32, 0#32⟩ ∧ (2335#32).toNat < 2336 :=
  ⟨rfl, by decide⟩
theorem witness_Classify_completes (m1 : Bool) :
    2336 ≤ (2336#32).toNat ∧ Holds (zeros 2352) (fun _ => 0#8) (List.range (if m1 then 2352 else 2336)) := by
  refine ⟨by decide, fun k hk => read_zeros ?_⟩
  rw [List.mem_range] at hk
  split at hk <;> omega
theorem witness_Classify_fault : LowestUnwritten (zeros 2335) (List.range (if false then 2352 else 2336)) 2335 :=
  ⟨by simp, read_zeros_none (by omega), fun j _ hlt => ⟨0#8, read_zeros hlt⟩⟩

theorem witness_EdcResidue : 0x1A3BA231#32 = edcUpdate 0#32 [0x31#8, 0x32#8] := by decide
theorem witness_EccVerifies : 85 < 86 ∧ 51 < 52 := by decide
/-- Two readings that differ inside the address field alone, which ZA masks. -/
theorem witness_EccDepends :
    (∀ j, InReadSet 0 true 2076 j → (fun (_ : Int) => 0#8) j = (fun (j : Int) => if j = 13 then 1#8 else 0#8) j) := by
  rintro j ⟨-, hz⟩
  have : j ≠ 13 := fun h => hz ⟨rfl, by omega, by omega⟩
  simp [this]
theorem witness_Mode1Excludes : (classify s1 2352 true).c1 = true ∧ syncOk s1 = true := by
  rw [test_classify_s1]; decide
theorem witness_Mode1Excludes_sync : SyncOk s1 := by
  refine ⟨by decide, fun k h1 h2 => ?_, by decide⟩
  interval_cases k <;> decide

theorem witness_Feeding :
    ({ State.reset with inputs := [.access 0x8018#16 0x31#32, .access 0xA018#16 0x3332#32, .access 0xC018#16 0x37363534#32, .engine] }
      : State).inputs = [Feed.one 0x31#8, .two 0x3332#16, .four 0x37363534#32].map Feed.event ++ [.engine] := by decide

theorem witness_StepKeeps : Inv busyNop ∧ step busyNop = .next { State.reset with done := true } := ⟨inv_busyNop, rfl⟩
theorem witness_StepStops_fault :
    Inv { State.reset with inputs := [.access 0x1000#16 0#32] } ∧ ({ State.reset with inputs := [.access 0x1000#16 0#32] } : State).fault = none
      ∧ step { State.reset with inputs := [.access 0x1000#16 0#32] } = .fault (.uninitRead 0) := by
  refine ⟨⟨by decide, by decide, by decide, fun p h => ?_, fun p h => ?_, fun p h => ?_⟩, rfl, rfl⟩ <;> cases h
theorem witness_StepStops_full :
    Inv (withBuf (zeros 2352)) ∧ (withBuf (zeros 2352)).fault = none ∧ ∀ k, k < 2352 → (withBuf (zeros 2352)).buf.read k ≠ none := by
  refine ⟨inv_zeros, rfl, fun k hk => ?_⟩
  show (zeros 2352).read k ≠ none
  rw [read_zeros hk]; simp
theorem witness_OnlyWrites :
    exec (.wr32ArgOff 5#32) State.reset = .next { State.reset with argOff := 5#32 }
      ∧ (∀ k v, Instr.wr32ArgOff 5#32 ≠ .wr8Buf k v) ∧ (∀ v, Instr.wr32ArgOff 5#32 ≠ .wr32EdcAcc v) :=
  ⟨rfl, fun _ _ h => (by cases h), fun _ h => (by cases h)⟩
theorem witness_Sticky :
    step { busyNop with errcode := 5#4 } = .next { State.reset with errcode := 5#4, done := true }
      ∧ ({ busyNop with errcode := 5#4 } : State).errcode ≠ 0#4
      ∧ (∀ v later, ({ busyNop with errcode := 5#4 } : State).inputs ≠ .access 0xC00C#16 v :: later)
      ∧ ∀ later, ({ busyNop with errcode := 5#4 } : State).inputs ≠ .reset :: later :=
  ⟨rfl, by decide, fun _ _ h => (by cases h), fun _ h => (by cases h)⟩
theorem witness_Precise :
    exec (.illegalAccess 0xC000#16) State.reset = .next { State.reset with errcode := 5#4 } ∧ 5#4 ≠ State.reset.errcode := ⟨rfl, by decide⟩
theorem witness_Frozen :
    ({ busyNop with inputs := [.access 0xC014#16 1#32] } : State).engine = .busy ⟨0#32, 0#32, 0#32, 0#32, 0#32⟩
      ∧ step { busyNop with inputs := [.access 0xC014#16 1#32] } = .next { busyNop with errcode := 4#4 } := ⟨rfl, rfl⟩
theorem witness_PendingEnds :
    Inv busyNop ∧ busyNop.fault = none ∧ busyNop.engine = .busy ⟨0#32, 0#32, 0#32, 0#32, 0#32⟩ := ⟨inv_busyNop, rfl, rfl⟩
theorem witness_BusyRace : State.reset.fault = none ∧ State.reset.engine = .idle ∧ State.reset.errcode = 0#4 := ⟨rfl, rfl, rfl⟩

end Sys2Proof.Tests
end

section
/-!
Which access descriptors are illegal (20_memory.md R57, 30_encoding.md R80). A descriptor is read through its three fields; the decoder
tries the rows that one descriptor makes up, then the two regions with an offset field; each of the two parts is compared with the
clauses of the rule on its own.
-/

namespace Sys2Proof

open Machine Claims

/-! ### The fields of a descriptor -/

theorem accDescriptor_toNat (wr : Bool) (sz : BitVec 2) (off : BitVec 13) :
    (accDescriptor wr sz off).toNat = wr.toNat * 32768 + sz.toNat * 8192 + off.toNat := by
  rw [accDescriptor, BitVec.toNat_append, BitVec.toNat_append, ← Nat.shiftLeft_add_eq_or_of_lt off.isLt,
    ← Nat.shiftLeft_add_eq_or_of_lt sz.isLt, BitVec.toNat_ofBool]
  omega

theorem accDescriptor_getLsbD_write (wr : Bool) (sz : BitVec 2) (off : BitVec 13) :
    (accDescriptor wr sz off).getLsbD 15 = wr := by
  rw [← BitVec.testBit_toNat, accDescriptor_toNat, Nat.testBit_eq_decide_div_mod_eq]
  cases wr <;> simp <;> omega

@[simp] theorem accDescriptor_extractLsb'_size (wr : Bool) (sz : BitVec 2) (off : BitVec 13) :
    (accDescriptor wr sz off).extractLsb' 13 2 = sz := by
  apply BitVec.eq_of_toNat_eq
  rw [BitVec.extractLsb'_toNat, accDescriptor_toNat]
  omega

@[simp] theorem accDescriptor_extractLsb'_offset (wr : Bool) (sz : BitVec 2) (off : BitVec 13) :
    (accDescriptor wr sz off).extractLsb' 0 13 = off := by
  apply BitVec.eq_of_toNat_eq
  rw [BitVec.extractLsb'_toNat, accDescriptor_toNat]
  omega

/-- No two triples of fields share a descriptor. -/
theorem accDescriptor_inj {wr wr' : Bool} {sz sz' : BitVec 2} {off off' : BitVec 13} :
    accDescriptor wr sz off = accDescriptor wr' sz' off' ↔ wr = wr' ∧ sz = sz' ∧ off = off' := by
  constructor
  · intro h
    refine ⟨?_, ?_, ?_⟩
    · rw [← accDescriptor_getLsbD_write wr sz off, h, accDescriptor_getLsbD_write]
    · rw [← accDescriptor_extractLsb'_size wr sz off, h, accDescriptor_extractLsb'_size]
    · rw [← accDescriptor_extractLsb'_offset wr sz off, h, accDescriptor_extractLsb'_offset]
  · rintro ⟨rfl, rfl, rfl⟩
    rfl

theorem toNat_decide_eq_one {w : Nat} (hw : w < 2) : (decide (w = 1)).toNat = w := by
  interval_cases w <;> rfl

/-- The descriptor of the claims, from its fields as numbers, is the encoder's descriptor. -/
theorem descriptor_eq_accDescriptor {w sz off : Nat} (hw : w < 2) (hsz : sz < 4) (hoff : off < 8192) :
    descriptor w sz off = accDescriptor (decide (w = 1)) (BitVec.ofNat 2 sz) (BitVec.ofNat 13 off) := by
  apply BitVec.eq_of_toNat_eq
  simp only [descriptor, accDescriptor_toNat, BitVec.toNat_ofNat, toNat_decide_eq_one hw]
  omega

/-! ### The two parts of the decoder -/

/-- The descriptors that make up a row of their own: the legal register accesses and the EDC_DATA port (30_encoding.md R83). -/
def registerDescriptors : List Descriptor :=
  [accDescriptor false 2#2 0x000#13, accDescriptor false 2#2 0x004#13, accDescriptor false 2#2 0x008#13,
   accDescriptor false 2#2 0x00C#13, accDescriptor false 2#2 0x010#13, accDescriptor false 2#2 0x014#13,
   accDescriptor false 2#2 0x018#13, accDescriptor false 2#2 0x01C#13, accDescriptor false 2#2 0x020#13,
   accDescriptor false 2#2 0x024#13, accDescriptor false 2#2 0x028#13,
   accDescriptor false 0#2 0x018#13, accDescriptor false 1#2 0x018#13,
   accDescriptor true 2#2 0x004#13, accDescriptor true 2#2 0x008#13, accDescriptor true 2#2 0x00C#13,
   accDescriptor true 2#2 0x014#13, accDescriptor true 2#2 0x01C#13, accDescriptor true 2#2 0x020#13,
   accDescriptor true 2#2 0x024#13, accDescriptor true 2#2 0x028#13,
   accDescriptor true 0#2 0x018#13, accDescriptor true 1#2 0x018#13, accDescriptor true 2#2 0x018#13]

theorem registerDescriptors_eq : registerDescriptors =
    [0x4000#16, 0x4004#16, 0x4008#16, 0x400C#16, 0x4010#16, 0x4014#16, 0x4018#16, 0x401C#16, 0x4020#16, 0x4024#16, 0x4028#16,
     0x0018#16, 0x2018#16, 0xC004#16, 0xC008#16, 0xC00C#16, 0xC014#16, 0xC01C#16, 0xC020#16, 0xC024#16, 0xC028#16,
     0x8018#16, 0xA018#16, 0xC018#16] := by decide

/-- No register row is the catch-all row; every other descriptor is left to the rows with an offset field. -/
theorem decodeAcc16_eq_illegalAccess_iff (d : Descriptor) (v : Word) :
    decodeAcc16 d v = .illegalAccess d ↔ d ∉ registerDescriptors ∧ decodeWindow d v = .illegalAccess d := by
  rw [registerDescriptors_eq]
  unfold decodeAcc16
  split
  case h_25 => simp_all
  all_goals simp

theorem inRegion_iff {lo hi : BitVec 13} {sz : BitVec 2} {off : BitVec 13} :
    inRegion lo hi sz off = true ↔ lo.toNat ≤ off.toNat ∧ off.toNat < hi.toNat ∧ off.toNat % 2 ^ sz.toNat = 0 := by
  simp [inRegion, bytesOfSz, Nat.shiftLeft_eq, BitVec.le_def, BitVec.lt_def, and_assoc]

/-- The table windows end below the sector buffer, so the order of the decoder's two tests decides nothing (20_memory.md R51). -/
theorem inRegion_buffer_of_inRegion_tables {sz : BitVec 2} {off : BitVec 13} (h : inRegion 0x400#13 0xA00#13 sz off = true) :
    inRegion 0x1000#13 0x1930#13 sz off = false := by
  obtain ⟨-, hlt, -⟩ := inRegion_iff.1 h
  rw [Bool.eq_false_iff, ne_eq, inRegion_iff]
  rintro ⟨hbuffer, -, -⟩
  exact absurd (hbuffer.trans_lt hlt) (by decide)

/-- A row with an offset field takes a table read or a buffer access of a size that exists, and nothing else. -/
theorem decodeWindow_eq_illegalAccess_iff (wr : Bool) (sz : BitVec 2) (off : BitVec 13) (v : Word) :
    decodeWindow (accDescriptor wr sz off) v = .illegalAccess (accDescriptor wr sz off) ↔
      ¬ (sz ≠ 3#2 ∧ ((wr = false ∧ inRegion 0x400#13 0xA00#13 sz off = true) ∨ inRegion 0x1000#13 0x1930#13 sz off = true)) := by
  simp only [decodeWindow, accDescriptor_getLsbD_write, accDescriptor_extractLsb'_size, accDescriptor_extractLsb'_offset]
  by_cases htable : inRegion 0x400#13 0xA00#13 sz off = true
  · have hbuffer := inRegion_buffer_of_inRegion_tables htable
    split_ifs <;> simp_all
  · split_ifs <;> simp_all

/-! ### The clauses of the rule -/

theorem size_cases : ∀ sz : BitVec 2, sz = 0#2 ∨ sz = 1#2 ∨ sz = 2#2 ∨ sz = 3#2 := by decide

/-- Clause (1) of rule R57: the register rows are the legal accesses of the register region. -/
theorem mem_registerDescriptors_iff (wr : Bool) (sz : BitVec 2) (off : BitVec 13) :
    accDescriptor wr sz off ∈ registerDescriptors ↔
      (off.toNat < 0x02C ∧ sz = 2#2 ∧ off.toNat % 4 = 0 ∧ ¬ (wr = true ∧ (off.toNat = 0x000 ∨ off.toNat = 0x010)))
        ∨ (off.toNat = 0x018 ∧ (sz = 0#2 ∨ sz = 1#2)) := by
  simp only [registerDescriptors, List.mem_cons, List.not_mem_nil, or_false, accDescriptor_inj, ← BitVec.toNat_inj (x := off)]
  obtain rfl | rfl | rfl | rfl := size_cases sz
  · cases wr <;> simp
  · cases wr <;> simp
  · cases wr <;> simp <;> omega
  · simp

/-- Rule R57 is the test that the decoder makes. -/
theorem decode_accDescriptor_eq_illegalAccess_iff (wr : Bool) (sz : BitVec 2) (off : BitVec 13) (v : Word) :
    decode (.acc16 (accDescriptor wr sz off) v) = .illegalAccess (accDescriptor wr sz off) ↔
      ¬ (sz ≠ 3#2 ∧ LegalAccess wr.toNat (2 ^ sz.toNat) off.toNat) := by
  rw [decode, decodeAcc16_eq_illegalAccess_iff, decodeWindow_eq_illegalAccess_iff, mem_registerDescriptors_iff, ← not_or,
    inRegion_iff, inRegion_iff, LegalAccess]
  obtain rfl | rfl | rfl | rfl := size_cases sz
  · cases wr <;> simp
  · cases wr <;> simp
  · cases wr <;> simp
  · simp

/-! ### What an illegal access does -/

theorem raise_access_eq_withError (s : State) : s.raise .access = withError 5#4 s := by
  simp [State.raise, withError, errNumber]

theorem exec_illegalAccess (d : Descriptor) (s : State) : exec (.illegalAccess d) s = execIllegalAccess d s := rfl

/-- An illegal access records ACCESS, answers 0 to a read, and does nothing else, in either phase. -/
theorem exec_illegalAccess_accDescriptor (wr : Bool) (sz : BitVec 2) (off : BitVec 13) (s : State) :
    exec (.illegalAccess (accDescriptor wr sz off)) s
      = .next (if wr then withError 5#4 s else returned 0#32 (withError 5#4 s)) := by
  rw [exec_illegalAccess, execIllegalAccess, accDescriptor_getLsbD_write, raise_access_eq_withError]
  rfl

/-- Settles O5: the fields as numbers are the fields of the descriptor, and on those the decoder's test is the rule's. -/
theorem illegalAccessesAreThoseOfTheRule : Obligations.IllegalAccessesAreThoseOfTheRule := by
  intro w sz off v hw hsz hoff
  have hsize : (BitVec.ofNat 2 sz).toNat = sz := Nat.mod_eq_of_lt hsz
  have hoffset : (BitVec.ofNat 13 off).toNat = off := Nat.mod_eq_of_lt hoff
  have hnone : BitVec.ofNat 2 sz ≠ 3#2 ↔ sz ≠ 3 := by rw [ne_eq, ← BitVec.toNat_inj, hsize]; rfl
  have hillegal := decode_accDescriptor_eq_illegalAccess_iff (decide (w = 1)) (BitVec.ofNat 2 sz) (BitVec.ofNat 13 off) v
  rw [toNat_decide_eq_one hw, hsize, hoffset, hnone] at hillegal
  rw [descriptor_eq_accDescriptor hw hsz hoff]
  refine ⟨hillegal, fun h s => ?_⟩
  rw [hillegal.2 h, exec_illegalAccess_accDescriptor]
  interval_cases w <;> rfl

end Sys2Proof
end

section
/-!
Which command words are illegal (30_encoding.md R79), and what the issue of one does (60_exceptions.md R191). The bits of the rule and the
decoder are each compared with the list of the eleven legal words; the write then goes through the first check of the issue protocol.
-/

namespace Sys2Proof

open Machine Claims

/-! ### The legal words -/

/-- The legal command words, by opcode (30_encoding.md R82). -/
def legalWords : List Word :=
  [0x00#32, 0x01#32, 0x02#32, 0x03#32, 0x13#32, 0x23#32, 0x33#32, 0x04#32, 0x05#32, 0x06#32, 0x46#32]

theorem legalBits_iff_mem_legalWords (w : Word) : LegalBits w ↔ w ∈ legalWords := by
  simp only [LegalBits, legalWords, List.mem_cons, List.not_mem_nil, or_false, ← BitVec.toNat_inj, BitVec.toNat_ofNat]
  omega

/-- The catch-all row takes the words outside the list and carries the word itself, so no bit of it is lost. -/
theorem decodeCmd32_eq_illegalCmd_iff (w v : Word) : decodeCmd32 w = .illegalCmd v ↔ w ∉ legalWords ∧ v = w := by
  unfold decodeCmd32
  split
  case h_12 =>
    rw [Instr.illegalCmd.injEq, eq_comm]
    simp_all [legalWords]
  all_goals simp [legalWords]

/-- The decoder's test of a command word is the rule's. -/
theorem decodeCmd32_eq_illegalCmd_self_iff (w : Word) : decodeCmd32 w = .illegalCmd w ↔ ¬ LegalBits w := by
  rw [decodeCmd32_eq_illegalCmd_iff, legalBits_iff_mem_legalWords, and_iff_left rfl]

/-! ### The issue of an illegal word -/

theorem isLegal_eq_false_of_not_legalBits {w : Word} (h : ¬ LegalBits w) : isLegal w = false := by
  rw [isLegal, (decodeCmd32_eq_illegalCmd_self_iff w).2 h]

/-- A rejection at issue is the rejection of the claims, with the number of its code. -/
theorem reject_latchCmd_eq_rejected (w : Word) (c : ErrCode) (s : State) :
    (s.latchCmd w).reject c = rejected w (errNumber c) s := by
  simp [State.reject, State.raise, State.latchCmd, rejected]

theorem issue_of_not_legalBits {w : Word} (h : ¬ LegalBits w) (s : State) : issue w s = rejected w 1#4 s := by
  have hissue : issue w s = (s.latchCmd w).reject .illegalCmd := by
    simpa [isLegal_eq_false_of_not_legalBits h] using issue_cases w s
  rw [hissue, reject_latchCmd_eq_rejected, errNumber]

theorem protectedWrite_of_idle {s : State} (h : s.engine = .idle) (f : State → State) : s.protectedWrite f = f s := by
  simpa [h] using s.protectedWrite_cases f

/-- While IDLE a CMD write is the issue of its word. -/
theorem exec_wr32Cmd_of_idle (w : Word) {s : State} (h : s.engine = .idle) : exec (.wr32Cmd w) s = .next (issue w s) := by
  rw [← protectedWrite_of_idle h (issue w)]
  rfl

/-- Settles O3: the bits of the rule and the decoder name the same eleven words, and the first check of the issue rejects any other. -/
theorem illegalWordsAreThoseOfTheRule : Obligations.IllegalWordsAreThoseOfTheRule := by
  intro w
  refine ⟨(decodeCmd32_eq_illegalCmd_self_iff w).not_left, fun s hidle hbits => ?_⟩
  rw [exec_wr32Cmd_of_idle w hidle, issue_of_not_legalBits hbits]

end Sys2Proof
end

section
/-!
What the shared operations of the commands do in each phase, in the words of the claims: a protected write while BUSY, the issue of a
command whose only check left is its range (60_exceptions.md R190, R191), and a completion on a footprint that rises (10_state.md R37).
-/

namespace Sys2Proof

open Machine Claims

/-! ### The two phases -/

theorem raise_eq_withError (c : ErrCode) (s : State) : s.raise c = withError (errNumber c) s := by
  simp [State.raise, withError]

/-- While BUSY a protected write leaves the error BUSY and nothing else. -/
theorem protectedWrite_of_isBusy {s : State} (h : IsBusy s) (f : State → State) : s.protectedWrite f = withError 4#4 s := by
  obtain ⟨p, hp⟩ := h
  have hbusy : s.protectedWrite f = s.raise .busy := by simpa [hp] using s.protectedWrite_cases f
  rw [hbusy, raise_eq_withError, errNumber]

theorem commandStep_of_idle {s : State} (h : s.engine = .idle) (w : Word) (run : Pending → Out) :
    commandStep w run s = .next (issue w s) := by
  simpa [h] using commandStep_cases w run s

theorem commandStep_of_busy {s : State} {p : Pending} (h : s.engine = .busy p) (w : Word) (run : Pending → Out) :
    commandStep w run s = run p := by
  simpa [h, eq_comm] using commandStep_cases w run s

/-! ### The issue of a legal word -/

/-- The issue of a legal word that meets its precondition turns on its range check alone. -/
theorem issue_of_rangeOk_iff {w : Word} {s : State} {P : Prop} [Decidable P] (hlegal : isLegal w = true)
    (hpre : precondOk w s = true) (hrange : rangeOk w s = true ↔ P) :
    issue w s = if P then accepted w s else rejected w 2#4 s := by
  have hissue := issue_cases w s
  split_ifs with h
  · have haccept : issue w s = (s.latchCmd w).accept w := by simpa [hlegal, hpre, hrange.2 h] using hissue
    exact haccept
  · have hout : rangeOk w s = false := Bool.eq_false_iff.2 (h ∘ hrange.1)
    have hreject : issue w s = (s.latchCmd w).reject .range := by simpa [hlegal, hout] using hissue
    rw [hreject, reject_latchCmd_eq_rejected, errNumber]

/-! ### The completion on a rising footprint -/

/-- The first unwritten offset of a rising list is its lowest one. -/
theorem firstUnwritten_of_lowestUnwritten {m : Memory} {offsets : List Nat} {k : Nat} (hrise : offsets.Pairwise (· < ·))
    (h : LowestUnwritten m offsets k) : m.firstUnwritten offsets = some k := by
  obtain ⟨hmem, hnone, hbelow⟩ := h
  induction offsets with
  | nil => cases hmem
  | cons a rest ih =>
    obtain ⟨hfirst, hrise⟩ := List.pairwise_cons.1 hrise
    obtain rfl | hrest := List.mem_cons.1 hmem
    · simp [Memory.firstUnwritten, hnone]
    · obtain ⟨b, hb⟩ := hbelow a List.mem_cons_self (hfirst k hrest)
      simpa [Memory.firstUnwritten, hb] using ih hrise hrest fun j hj => hbelow j (List.mem_cons_of_mem a hj)

/-- A completion faults at the lowest unwritten byte of a range. -/
theorem completeIfWritten_range'_fault {lo n k : Nat} {s : State} (h : LowestUnwritten s.buf (List.range' lo n) k) (t : State) :
    completeIfWritten (List.range' lo n) t s = .fault (.uninitRead k) :=
  completeIfWritten_fault.2 (firstUnwritten_of_lowestUnwritten List.pairwise_lt_range' h)

/-- A range that holds a byte sequence is written. -/
theorem written_range'_of_reads {m : Memory} {lo : Nat} {bs : List Byte}
    (h : ∀ j b, bs[j]? = some b → m.read (lo + j) = some b) : Written m (List.range' lo bs.length) := by
  intro k hk
  obtain ⟨j, hj, rfl⟩ := List.mem_range'.1 hk
  exact ⟨bs[j], by simpa using h j bs[j] (List.getElem?_eq_getElem hj)⟩

/-- A range that holds a byte sequence reads as that sequence. -/
theorem byteRange_of_reads {m : Memory} {lo : Nat} {bs : List Byte}
    (h : ∀ j b, bs[j]? = some b → m.read (lo + j) = some b) : byteRange m.byteAt lo bs.length = bs := by
  refine List.ext_getElem (by simp [byteRange]) fun j hj hbs => ?_
  have hread : m.byteAt (lo + j : Nat) = bs[j] := Memory.byteAt_of_read (h j bs[j] (List.getElem?_eq_getElem hbs))
  simpa [byteRange] using hread

end Sys2Proof
end

section
/-!
The EDC engine (41_edc.md): its step and update, the EDC_DATA port, and the two commands EDC_BLOCK and EDC_COMPARE, each at its issue,
its completion and its fault.
-/

namespace Sys2Proof

open Machine Claims

/-! ### The step and the update -/

@[simp] theorem edcUpdate_nil (acc : Word) : edcUpdate acc [] = acc := rfl

@[simp] theorem edcUpdate_cons (acc : Word) (b : Byte) (bs : List Byte) :
    edcUpdate acc (b :: bs) = edcUpdate (edcStep acc b) bs := rfl

/-- Rule R110 on numbers: the shift is the division by 256, the table index the remainder. -/
theorem edcStep_eq (acc : Word) (b : Byte) :
    edcStep acc b = BitVec.ofNat 32 (acc.toNat / 256) ^^^ edcLut (BitVec.ofNat 8 ((acc.toNat ^^^ b.toNat) % 256)) := by
  have hshift : acc >>> 8 = BitVec.ofNat 32 (acc.toNat / 256) := by
    apply BitVec.eq_of_toNat_eq
    rw [BitVec.toNat_ushiftRight, Nat.shiftRight_eq_div_pow, BitVec.toNat_ofNat]
    omega
  have hindex : (acc ^^^ b.setWidth 32).setWidth 8 = BitVec.ofNat 8 ((acc.toNat ^^^ b.toNat) % 256) := by
    apply BitVec.eq_of_toNat_eq
    have hxor := Nat.xor_mod_two_pow (a := acc.toNat) (b := b.toNat) (n := 8)
    have hb : b.toNat % 2 ^ 8 = b.toNat := Nat.mod_eq_of_lt b.isLt
    rw [hb] at hxor
    simpa using hxor.symm
  rw [edcStep, hshift, hindex]

/-- Settles O32: the table entry of the step from its bits, and the two equations of the update. -/
theorem edcUpdateStepsInOrder : Obligations.EdcUpdateStepsInOrder :=
  ⟨edcStep_eq, edcUpdate_nil, edcUpdate_cons⟩

/-! ### The EDC_DATA port -/

/-- Byte `j` of an access is the data bits `[8j+7:8j]` (20_memory.md R55). -/
theorem laneBytes_eq_extractLsb' (n : Nat) (v : Word) :
    laneBytes n v = (List.range n).map fun (j : Nat) => v.extractLsb' (8 * j) 8 := rfl

/-- The lanes of narrow data are those of the data, whatever fills the word above them. -/
theorem extractLsb'_setWidth_word {n : Nat} (v : BitVec n) {lo : Nat} (h : lo + 8 ≤ n) (hn : n ≤ 32) :
    (v.setWidth 32).extractLsb' lo 8 = v.extractLsb' lo 8 := by
  apply BitVec.eq_of_getLsbD_eq
  intro i hi
  simp [hi]
  omega

theorem foldEdcData_of_idle {s : State} (h : s.engine = .idle) (n : Nat) (v : Word) :
    foldEdcData n v s = { s with edcAcc := edcUpdate s.edcAcc (laneBytes n v) } :=
  protectedWrite_of_idle h _

theorem foldEdcData_of_isBusy {s : State} (h : IsBusy s) (n : Nat) (v : Word) : foldEdcData n v s = withError 4#4 s :=
  protectedWrite_of_isBusy h _

theorem exec_wr8EdcData (v : Byte) (s : State) : exec (.wr8EdcData v) s = .next (foldEdcData 1 (v.setWidth 32) s) := rfl

theorem exec_wr16EdcData (v : BitVec 16) (s : State) : exec (.wr16EdcData v) s = .next (foldEdcData 2 (v.setWidth 32) s) := rfl

theorem exec_wr32EdcData (v : Word) (s : State) : exec (.wr32EdcData v) s = .next (foldEdcData 4 v s) := rfl

theorem laneBytes_one (v : Byte) : laneBytes 1 (v.setWidth 32) = [v] := by
  simp [laneBytes_eq_extractLsb', List.range_succ, extractLsb'_setWidth_word]

theorem laneBytes_two (v : BitVec 16) : laneBytes 2 (v.setWidth 32) = [v.extractLsb' 0 8, v.extractLsb' 8 8] := by
  simp [laneBytes_eq_extractLsb', List.range_succ, extractLsb'_setWidth_word]

theorem laneBytes_four (v : Word) :
    laneBytes 4 v = [v.extractLsb' 0 8, v.extractLsb' 8 8, v.extractLsb' 16 8, v.extractLsb' 24 8] := rfl

/-- No access at 0x019 to 0x01B is legal, of any size (20_memory.md R57). -/
theorem not_legalAccess_inside_edcData (w n : Nat) {off : Nat} (hlo : 0x019 ≤ off) (hhi : off ≤ 0x01B) : ¬ LegalAccess w n off := by
  unfold LegalAccess
  omega

/-- Settles O19: the port is a protected write that folds the lanes of its size; what is no access to it is illegal by rule R57. -/
theorem edcDataWriteFoldsItsBytes : Obligations.EdcDataWriteFoldsItsBytes := by
  refine ⟨fun s hidle => ?_, fun s hbusy => ?_, fun v => ⟨?_, ?_, rfl, fun s => ⟨?_, ?_, fun w sz off hw hsz hlo hhi => ?_⟩⟩⟩
  · refine ⟨fun v => ?_, fun v => ?_, fun v => ?_⟩
    · simp [exec_wr8EdcData, foldEdcData_of_idle hidle, laneBytes_one]
    · simp [exec_wr16EdcData, foldEdcData_of_idle hidle, laneBytes_two]
    · simp [exec_wr32EdcData, foldEdcData_of_idle hidle, laneBytes_four]
  · simp [exec_wr8EdcData, exec_wr16EdcData, exec_wr32EdcData, foldEdcData_of_isBusy hbusy]
  · rw [← BitVec.setWidth_eq_extractLsb' (by decide)]; rfl
  · rw [← BitVec.setWidth_eq_extractLsb' (by decide)]; rfl
  · exact (illegalAccessesAreThoseOfTheRule 1 3 0x018 v (by decide) (by decide) (by decide)).2 (by simp) s
  · exact (illegalAccessesAreThoseOfTheRule 0 3 0x018 v (by decide) (by decide) (by decide)).2 (by simp) s
  · exact (illegalAccessesAreThoseOfTheRule w sz off v hw hsz (by omega)).2
      (fun h => not_legalAccess_inside_edcData w (2 ^ sz) hlo hhi h.2) s

/-! ### EDC_BLOCK -/

/-- The issue of word 1: its range is the operand range, on unbounded integers (60_exceptions.md R183). -/
theorem issue_edcBlock (s : State) :
    issue 1#32 s = if s.argOff.toNat + s.argLen.toNat ≤ 2352 then accepted 1#32 s else rejected 1#32 2#4 s :=
  issue_of_rangeOk_iff rfl rfl decide_eq_true_iff

theorem exec_edcBlock_of_idle {s : State} (h : s.engine = .idle) : exec .edcBlock s = .next (issue 1#32 s) :=
  commandStep_of_idle h _ _

theorem exec_edcBlock_of_busy {s : State} {p : Pending} (h : s.engine = .busy p) :
    exec .edcBlock s = completeIfWritten (List.range' p.off.toNat p.len.toNat)
      (completed 0#32 { s with edcAcc := edcUpdate p.acc (byteRange s.buf.byteAt p.off.toNat p.len.toNat) }) s :=
  commandStep_of_busy h _ _

/-- Settles O26: the issue by its range check, the completion on the bytes that the range holds, the fault at its lowest unwritten byte. -/
theorem edcBlockFoldsTheRange : Obligations.EdcBlockFoldsTheRange := by
  refine ⟨rfl, fun s => ⟨fun hidle => ⟨fun hin => ?_, fun hout => ?_⟩, fun p hp => ⟨fun bs hlen hreads => ?_, fun k hk => ?_⟩⟩⟩
  · rw [exec_edcBlock_of_idle hidle, issue_edcBlock, if_pos hin]
  · rw [exec_edcBlock_of_idle hidle, issue_edcBlock, if_neg hout.not_ge]
  · rw [exec_edcBlock_of_busy hp, ← hlen, byteRange_of_reads hreads, completeIfWritten_next]
    exact ⟨written_range'_of_reads hreads, rfl⟩
  · rw [exec_edcBlock_of_busy hp, completeIfWritten_range'_fault hk]

/-! ### EDC_COMPARE -/

/-- The issue of word 2: the four bytes of the stored EDC lie inside the buffer (60_exceptions.md R183). -/
theorem issue_edcCompare (s : State) :
    issue 2#32 s = if s.argOff.toNat + 4 ≤ 2352 then accepted 2#32 s else rejected 2#32 2#4 s :=
  issue_of_rangeOk_iff rfl rfl decide_eq_true_iff

theorem packResult_matched (c : Bool) : packResult { matched := c } = if c = true then 1#32 else 0#32 := by
  cases c <;> rfl

theorem exec_edcCompare_of_idle {s : State} (h : s.engine = .idle) : exec .edcCompare s = .next (issue 2#32 s) :=
  commandStep_of_idle h _ _

theorem exec_edcCompare_of_busy {s : State} {p : Pending} (h : s.engine = .busy p) :
    exec .edcCompare s = completeIfWritten (List.range' p.off.toNat 4)
      (completed (if p.acc = le32 s.buf.byteAt p.off.toNat then 1#32 else 0#32) s) s := by
  have hresult := packResult_matched (p.acc == le32 s.buf.byteAt p.off.toNat)
  simp only [beq_iff_eq] at hresult
  rw [← hresult]
  exact commandStep_of_busy h _ _

/-- A byte placed above the bits of a word adds to it, where nothing is shifted out. -/
theorem toNat_or_shiftLeft_byte {x : Word} {b : Byte} {n : Nat} (hx : x.toNat < 2 ^ n) (hn : n ≤ 24) :
    (x ||| b.setWidth 32 <<< n).toNat = x.toNat + b.toNat * 2 ^ n := by
  have hbyte : (b.setWidth 32).toNat = b.toNat := BitVec.toNat_setWidth_of_le (by decide)
  have hfits : b.toNat * 2 ^ n < 2 ^ 32 :=
    calc b.toNat * 2 ^ n < 2 ^ 8 * 2 ^ n := Nat.mul_lt_mul_of_pos_right b.isLt (Nat.two_pow_pos n)
      _ ≤ 2 ^ 8 * 2 ^ 24 := Nat.mul_le_mul_left _ (Nat.pow_le_pow_right Nat.two_pos hn)
  rw [BitVec.toNat_or, BitVec.toNat_shiftLeft, hbyte, Nat.shiftLeft_eq, Nat.mod_eq_of_lt hfits, Nat.or_comm, ← Nat.shiftLeft_eq,
    ← Nat.shiftLeft_add_eq_or_of_lt hx, Nat.shiftLeft_eq, Nat.add_comm]

/-- Four bytes of a word as the little-endian number of the claims (00_scope.md R10). -/
theorem toNat_or_bytes (b0 b1 b2 b3 : Byte) :
    (b0.setWidth 32 ||| b1.setWidth 32 <<< 8 ||| b2.setWidth 32 <<< 16 ||| b3.setWidth 32 <<< 24 : Word).toNat
      = leNat b0 b1 b2 b3 := by
  have h0 : (b0.setWidth 32).toNat = b0.toNat := BitVec.toNat_setWidth_of_le (by decide)
  have h1 := toNat_or_shiftLeft_byte (x := b0.setWidth 32) (b := b1) (n := 8) (by omega) (by decide)
  have h2 := toNat_or_shiftLeft_byte (x := b0.setWidth 32 ||| b1.setWidth 32 <<< 8) (b := b2) (n := 16) (by omega) (by decide)
  rw [toNat_or_shiftLeft_byte (by omega) (by decide), h2, h1, h0, leNat]
  omega

theorem toNat_le32 (B : Int → Byte) (k : Nat) :
    (le32 B k).toNat = leNat (B k) (B (k + 1 : Nat)) (B (k + 2 : Nat)) (B (k + 3 : Nat)) :=
  toNat_or_bytes _ _ _ _

/-- The comparison is of all 32 bits. -/
theorem eq_le32_iff (x : Word) {m : Memory} {k : Nat} {b0 b1 b2 b3 : Byte} (h0 : m.read k = some b0)
    (h1 : m.read (k + 1) = some b1) (h2 : m.read (k + 2) = some b2) (h3 : m.read (k + 3) = some b3) :
    x = le32 m.byteAt k ↔ x.toNat = leNat b0 b1 b2 b3 := by
  rw [← BitVec.toNat_inj, toNat_le32, Memory.byteAt_of_read h0, Memory.byteAt_of_read h1, Memory.byteAt_of_read h2,
    Memory.byteAt_of_read h3]

/-- Settles O27: the issue by its range check, the completion on the four stored bytes, the fault at the lowest unwritten one. -/
theorem edcCompareComparesTheStoredEdc : Obligations.EdcCompareComparesTheStoredEdc := by
  refine ⟨rfl, fun s => ⟨fun hidle => ⟨fun hin => ?_, fun hout => ?_⟩,
    fun p hp => ⟨fun b0 b1 b2 b3 h0 h1 h2 h3 => ?_, fun k hk => ?_⟩⟩⟩
  · rw [exec_edcCompare_of_idle hidle, issue_edcCompare, if_pos hin]
  · rw [exec_edcCompare_of_idle hidle, issue_edcCompare, if_neg hout.not_ge]
  · have hwritten : Written s.buf (List.range' p.off.toNat 4) := by simp [Written, List.range', h0, h1, h2, h3]
    rw [exec_edcCompare_of_busy hp, completeIfWritten_next]
    refine ⟨hwritten, ?_⟩
    simp only [eq_le32_iff p.acc h0 h1 h2 h3]
  · rw [exec_edcCompare_of_busy hp, completeIfWritten_range'_fault hk]

end Sys2Proof
end

section
/-!
The P/Q parity verifier (42_ecc.md): its read set as two intervals, the range check at their ends, the bytes that the verification
rests on, and the command ECC_VERIFY at its issue, its completion and its fault.
-/

namespace Sys2Proof

open Machine Claims

/-! ### The read set -/

/-- An area of the read set, given by its first offset and its length, is an interval. -/
theorem exists_offset_iff {a j : Int} {n : Nat} : (∃ i : Nat, i < n ∧ j = a + i) ↔ a ≤ j ∧ j < a + n := by
  constructor
  · rintro ⟨i, hi, rfl⟩
    omega
  · intro h
    exact ⟨(j - a).toNat, by omega, by omega⟩

theorem inReadSet_iff {vb : Int} {za : Bool} {dest : Nat} {j : Int} :
    InReadSet vb za dest j ↔
      ((vb + 12 ≤ j ∧ j < vb + 12 + 2236) ∨ ((dest : Int) ≤ j ∧ j < dest + 276)) ∧ ¬ (za = true ∧ vb + 12 ≤ j ∧ j ≤ vb + 15) := by
  simp only [InReadSet, exists_offset_iff, Nat.cast_ofNat]

/-- The model's test of the read set is the rule's. -/
theorem inEccReadSet_iff {vb : Int} {za : Bool} {dest : Nat} {j : Int} :
    inEccReadSet vb za dest j = true ↔ InReadSet vb za dest j := by
  simp only [inEccReadSet, inReadSet_iff, Bool.and_eq_true, Bool.or_eq_true, Bool.not_eq_true', ← Bool.not_eq_true,
    decide_eq_true_iff, and_assoc]

/-- Where the range check passes, the footprint misses no offset of the read set. -/
theorem mem_eccFootprint_iff {vb : Int} {za : Bool} {dest : Nat} (hin : EccInRange vb za dest) {k : Nat} :
    k ∈ eccFootprint vb za dest ↔ InReadSet vb za dest k := by
  rw [eccFootprint, List.mem_filter, List.mem_range, inEccReadSet_iff]
  refine and_iff_right_of_imp fun hk => ?_
  have hbound := hin k hk
  unfold Config.bufSize
  omega

theorem eccFootprint_pairwise_lt (vb : Int) (za : Bool) (dest : Nat) : (eccFootprint vb za dest).Pairwise (· < ·) :=
  List.pairwise_lt_range.filter _

/-! ### The range check -/

theorem eccRangeOk_eq_true_iff {za view : Bool} {dest : Nat} :
    eccRangeOk za view dest = true ↔
      0 ≤ base view + (if za then 16 else 12) ∧ base view + 12 + 2236 ≤ 2352 ∧ dest + 276 ≤ 2352 := by
  simp only [eccRangeOk, Bool.and_eq_true, decide_eq_true_iff, and_assoc]
  rfl

/-- The ends of the two areas decide the check of the whole read set: its first data offset outside the address field, its last data
offset, and the last offset of the parity, which lies above every address field (log entry 15). -/
theorem eccInRange_iff_eccRangeOk {za view : Bool} {dest : Nat} :
    EccInRange (base view) za dest ↔ eccRangeOk za view dest = true := by
  have hbase : base view ≤ 0 := by cases view <;> decide
  rw [eccRangeOk_eq_true_iff]
  constructor
  · intro hin
    have hfirst := hin (base view + (if za then 16 else 12)) (inReadSet_iff.2 (by cases za <;> simp; omega))
    have hlast := hin (base view + 12 + 2235) (inReadSet_iff.2 (by omega))
    have hparity := hin (dest + 275) (inReadSet_iff.2 (by omega))
    omega
  · rintro ⟨hfirst, hlast, hparity⟩ j hj
    obtain ⟨hdata | hstored, hfield⟩ := inReadSet_iff.1 hj
    · cases za <;> simp at hfirst hfield <;> omega
    · omega

/-- Without zero-address mode the view 16 bytes before the buffer reads its address field at the offsets -4 to -1. -/
theorem not_eccInRange_view (dest : Nat) : ¬ EccInRange (base true) false dest := by
  intro hin
  have hfield := hin (-4) (inReadSet_iff.2 (by simp [base]))
  omega

/-! ### The bytes that a verification rests on -/

/-- A view byte in one of the two areas is a byte of the read set, or 0 whatever the buffer holds. -/
theorem viewByte_congr {B C : Int → Byte} {vb : Int} {za : Bool} {dest : Nat} (h : ∀ j, InReadSet vb za dest j → B j = C j) {j : Int}
    (hj : (vb + 12 ≤ j ∧ j < vb + 12 + 2236) ∨ ((dest : Int) ≤ j ∧ j < dest + 276)) : viewByte B vb za j = viewByte C vb za j := by
  unfold viewByte
  split
  · rfl
  case isFalse hfield => exact h j (inReadSet_iff.2 ⟨hj, by simpa [and_assoc] using hfield⟩)

theorem eccNext_lt {g : Geometry} (hinc : g.minorInc ≤ g.majorCount * g.minorCount) {index : Nat}
    (h : index < g.majorCount * g.minorCount) : eccNext g index < g.majorCount * g.minorCount := by
  unfold eccNext
  split <;> omega

/-- A walk that starts inside its block stays inside it (42_ecc.md R131). -/
theorem lt_of_mem_eccIndices {g : Geometry} (hinc : g.minorInc ≤ g.majorCount * g.minorCount) {n index i : Nat}
    (h : index < g.majorCount * g.minorCount) (hi : i ∈ eccIndices g n index) : i < g.majorCount * g.minorCount := by
  induction n generalizing index with
  | zero => cases hi
  | succ n ih =>
    obtain rfl | hlater := List.mem_cons.1 hi
    · exact h
    · exact ih (eccNext_lt hinc h) hlater

theorem eccGroupData_congr {B C : Int → Byte} {vb : Int} {za : Bool} {g : Geometry} {major : Nat}
    (hinc : g.minorInc ≤ g.majorCount * g.minorCount) (hstart : eccStart g major < g.majorCount * g.minorCount)
    (hdata : ∀ i : Nat, i < g.majorCount * g.minorCount → viewByte B vb za (vb + 12 + i) = viewByte C vb za (vb + 12 + i)) :
    eccGroupData B vb za g major = eccGroupData C vb za g major :=
  List.map_congr_left fun i hi => hdata i (lt_of_mem_eccIndices hinc hstart hi)

/-- The check of one code rests on the view bytes of its data block and of its stored parity. -/
theorem eccBlock_congr {B C : Int → Byte} {vb : Int} {za : Bool} {g : Geometry} {dest : Nat}
    (hinc : g.minorInc ≤ g.majorCount * g.minorCount)
    (hstart : ∀ major, major < g.majorCount → eccStart g major < g.majorCount * g.minorCount)
    (hdata : ∀ i : Nat, i < g.majorCount * g.minorCount → viewByte B vb za (vb + 12 + i) = viewByte C vb za (vb + 12 + i))
    (hparity : ∀ k : Nat, dest ≤ k → k < dest + 2 * g.majorCount → viewByte B vb za k = viewByte C vb za k) :
    eccBlock B vb za g dest = eccBlock C vb za g dest := by
  have hgroup : ∀ major, major < g.majorCount → eccGroupOk B vb za g dest major = eccGroupOk C vb za g dest major := by
    intro major hmajor
    rw [eccGroupOk, eccGroupOk, eccGroupData_congr hinc (hstart major hmajor) hdata, hparity _ (by omega) (by omega),
      hparity _ (by omega) (by omega)]
  rw [Bool.eq_iff_iff, eccBlock, eccBlock, List.all_eq_true, List.all_eq_true]
  exact forall₂_congr fun major hmajor => by rw [hgroup major (List.mem_range.1 hmajor)]

theorem eccStart_pCode_lt {major : Nat} (h : major < 86) : eccStart Config.pCode major < 86 * 24 := by
  show major / 2 * 2 + major % 2 < 86 * 24
  omega

theorem eccStart_qCode_lt {major : Nat} (h : major < 52) : eccStart Config.qCode major < 52 * 43 := by
  show major / 2 * 86 + major % 2 < 52 * 43
  omega

/-- Two contents that agree on the read set verify alike: the data of both codes lies in the first 2236 bytes, the stored parity of P
and then of Q in the 276 bytes from `dest` (42_ecc.md R137). -/
theorem eccVerify_congr {B C : Int → Byte} {vb : Int} {za : Bool} {dest : Nat} (h : ∀ j, InReadSet vb za dest j → B j = C j) :
    eccVerify B vb za dest = eccVerify C vb za dest := by
  have hdata : ∀ i : Nat, i < 2236 → viewByte B vb za (vb + 12 + i) = viewByte C vb za (vb + 12 + i) :=
    fun i hi => viewByte_congr h (by omega)
  have hparity : ∀ k : Nat, dest ≤ k → k < dest + 276 → viewByte B vb za k = viewByte C vb za k :=
    fun k hlo hhi => viewByte_congr h (by omega)
  have hp : eccBlock B vb za Config.pCode dest = eccBlock C vb za Config.pCode dest :=
    eccBlock_congr (by decide) (fun _ => eccStart_pCode_lt) (fun i hi => hdata i (Nat.lt_trans hi (by decide)))
      fun k hlo hhi => hparity k hlo (Nat.lt_trans hhi (Nat.add_lt_add_left (by decide) dest))
  have hq : eccBlock B vb za Config.qCode (dest + 172) = eccBlock C vb za Config.qCode (dest + 172) :=
    eccBlock_congr (by decide) (fun _ => eccStart_qCode_lt) hdata fun k hlo hhi => hparity k (by omega) hhi
  rw [eccVerify, eccVerify, hp, hq]

/-! ### ECC_VERIFY -/

/-- The word of ECC_VERIFY as the number of its fields (30_encoding.md R82). -/
theorem cmdWord_eccVerify (za view : Bool) :
    cmdWord 3#4 za view false = BitVec.ofNat 32 (3 + 16 * za.toNat + 32 * view.toNat) := by
  cases za <;> cases view <;> rfl

theorem decodeCmd32_eccVerify (za view : Bool) : decodeCmd32 (cmdWord 3#4 za view false) = .eccVerify za view := by
  cases za <;> cases view <;> rfl

theorem rangeOk_eccVerify (za view : Bool) (s : State) :
    rangeOk (cmdWord 3#4 za view false) s = eccRangeOk za view s.argOff.toNat := by
  cases za <;> cases view <;> rfl

theorem precondOk_eccVerify (za view : Bool) (s : State) : precondOk (cmdWord 3#4 za view false) s = true := by
  cases za <;> cases view <;> rfl

/-- The issue of the four words turns on the range check alone. -/
theorem issue_eccVerify (za view : Bool) (s : State) :
    issue (cmdWord 3#4 za view false) s = if eccRangeOk za view s.argOff.toNat = true
      then accepted (cmdWord 3#4 za view false) s else rejected (cmdWord 3#4 za view false) 2#4 s :=
  issue_of_rangeOk_iff (by rw [isLegal, decodeCmd32_eccVerify]) (precondOk_eccVerify za view s) (by rw [rangeOk_eccVerify])

theorem exec_eccVerify_of_idle {s : State} (h : s.engine = .idle) (za view : Bool) :
    exec (.eccVerify za view) s = .next (issue (cmdWord 3#4 za view false) s) :=
  commandStep_of_idle h _ _

theorem exec_eccVerify_of_idle_inRange {za view : Bool} {s : State} (h : s.engine = .idle)
    (hin : EccInRange (base view) za s.argOff.toNat) :
    exec (.eccVerify za view) s = .next (accepted (BitVec.ofNat 32 (3 + 16 * za.toNat + 32 * view.toNat)) s) := by
  rw [exec_eccVerify_of_idle h, issue_eccVerify, if_pos (eccInRange_iff_eccRangeOk.1 hin), cmdWord_eccVerify]

theorem exec_eccVerify_of_idle_outOfRange {za view : Bool} {s : State} (h : s.engine = .idle)
    (hout : ¬ EccInRange (base view) za s.argOff.toNat) :
    exec (.eccVerify za view) s = .next (rejected (BitVec.ofNat 32 (3 + 16 * za.toNat + 32 * view.toNat)) 2#4 s) := by
  rw [exec_eccVerify_of_idle h, issue_eccVerify, if_neg (mt eccInRange_iff_eccRangeOk.2 hout), cmdWord_eccVerify]

/-- MATCH is bit 0, P_OK bit 9 and Q_OK bit 10 of RESULT (10_state.md R25). -/
theorem packResult_eccVerify (p q : Bool) :
    packResult { matched := q, pOk := p, qOk := q } = BitVec.ofNat 32 (q.toNat + 512 * p.toNat + 1024 * q.toNat) := by
  cases p <;> cases q <;> rfl

/-- RESULT after ECC_VERIFY on the contents `B`. -/
def eccResult (B : Int → Byte) (view za : Bool) (dest : Nat) : Word :=
  BitVec.ofNat 32 ((eccVerify B (base view) za dest).2.toNat + 512 * (eccVerify B (base view) za dest).1.toNat
    + 1024 * (eccVerify B (base view) za dest).2.toNat)

theorem exec_eccVerify_of_busy {s : State} {p : Pending} (h : s.engine = .busy p) (za view : Bool) :
    exec (.eccVerify za view) s = completeIfWritten (eccFootprint (base view) za p.off.toNat)
      (completed (eccResult s.buf.byteAt view za p.off.toNat) s) s := by
  rw [eccResult, ← packResult_eccVerify]
  exact commandStep_of_busy h _ _

/-- On a buffer that holds `B` on the read set, a verification is that of `B`: every offset of the set is one of the buffer. -/
theorem eccVerify_byteAt_of_reads {m : Memory} {B : Int → Byte} {vb : Int} {za : Bool} {dest : Nat} (hin : EccInRange vb za dest)
    (hreads : ∀ j : Nat, InReadSet vb za dest j → m.read j = some (B j)) :
    eccVerify m.byteAt vb za dest = eccVerify B vb za dest := by
  refine eccVerify_congr fun j hj => ?_
  obtain ⟨k, rfl⟩ := Int.eq_ofNat_of_zero_le (hin j hj).1
  exact Memory.byteAt_of_read (hreads k hj)

/-- Settles O28: the issue by the range check of the whole read set, the completion on the bytes of that set alone, the fault at its
lowest unwritten byte. -/
theorem eccVerifyReportsPAndQ : Obligations.EccVerifyReportsPAndQ := by
  refine ⟨fun za view => ?_, fun za view s => ⟨fun hidle => ⟨exec_eccVerify_of_idle_inRange hidle,
    exec_eccVerify_of_idle_outOfRange hidle, ?_⟩, fun p hp hin => ⟨fun B hreads => ?_, fun k hk hnone hbelow => ?_⟩⟩⟩
  · rw [← cmdWord_eccVerify]
    exact decodeCmd32_eccVerify za view
  · rintro rfl rfl
    exact exec_eccVerify_of_idle_outOfRange hidle (not_eccInRange_view _)
  · rw [exec_eccVerify_of_busy hp, completeIfWritten_next]
    refine ⟨fun k hk => ⟨B k, hreads k ((mem_eccFootprint_iff hin).1 hk)⟩, ?_⟩
    rw [eccResult, eccVerify_byteAt_of_reads hin hreads]
  · have hlowest : LowestUnwritten s.buf (eccFootprint (base view) za p.off.toNat) k :=
      ⟨(mem_eccFootprint_iff hin).2 hk, hnone,
        fun j hj hlt => Option.ne_none_iff_exists'.1 (hbelow j hlt ((mem_eccFootprint_iff hin).1 hj))⟩
    rw [exec_eccVerify_of_busy hp, completeIfWritten_fault]
    exact firstUnwritten_of_lowestUnwritten (eccFootprint_pairwise_lt _ _ _) hlowest

end Sys2Proof
end

section
/-!
The sync pattern detector and the subheader check (43_sync_subheader.md): the parts of their verdicts in the words of the rules, the
bytes that the verdicts rest on, and the commands SYNC_DETECT and SUBHDR_CHECK at their issue, their completion and their fault.
-/

namespace Sys2Proof

open Machine Claims

/-! ### The parts of HdrCheck and SubCheck -/

theorem forall_mem_byteRange {B : Int → Byte} {lo n : Nat} {P : Byte → Prop} :
    (∀ b ∈ byteRange B lo n, P b) ↔ ∀ k : Nat, lo ≤ k → k < lo + n → P (B k) := by
  simp only [byteRange, List.forall_mem_map, List.mem_range'_1, and_imp]

/-- Twelve bytes are the sync pattern when the ten between the two ends are 0xFF and the ends 0x00 (43_sync_subheader.md R150, R151). -/
theorem syncOk_iff (B : Int → Byte) : syncOk B = true ↔ SyncOk B := by
  have hbytes : byteRange B 0x000 12 = B 0 :: (byteRange B 1 10 ++ [B 11]) := rfl
  have hpattern : syncPattern = 0x00#8 :: (List.replicate 10 0xFF#8 ++ [0x00#8]) := rfl
  have hmiddle : byteRange B 1 10 = List.replicate 10 0xFF#8 ↔ ∀ k : Nat, 1 ≤ k → k < 11 → B k = 0xFF#8 := by
    rw [List.eq_replicate_iff, forall_mem_byteRange, and_iff_right (by simp [byteRange])]
  rw [syncOk, beq_iff_eq, hbytes, hpattern, List.cons.injEq, List.append_singleton_inj, hmiddle]
  simp only [SyncOk, Nat.lt_succ_iff]

theorem modeOk_iff (B : Int → Byte) : modeOk B = true ↔ ModeOk B := beq_iff_eq

theorem rsvdOk_iff (B : Int → Byte) : rsvdOk B = true ↔ RsvdOk B := by
  simp only [rsvdOk, List.all_eq_true, beq_iff_eq, forall_mem_byteRange, RsvdOk, Nat.lt_succ_iff]

theorem subCheck_iff (B : Int → Byte) : subCheck B = true ↔ SubOk B := by
  simp only [subCheck, SubOk, Bool.and_eq_true, beq_iff_eq, and_assoc]

/-- `SubCheck` compares the first four bytes with the next four (43_sync_subheader.md R154). -/
theorem subCheck_eq_byteRange (B : Int → Byte) : subCheck B = (byteRange B 0 4 == byteRange B 4 4) := by
  simp [subCheck, byteRange, List.range', Bool.and_assoc]

/-! ### The bytes that the verdicts rest on -/

theorem byteRange_congr {B C : Int → Byte} {lo n : Nat} (h : ∀ k ∈ List.range' lo n, B k = C k) :
    byteRange B lo n = byteRange C lo n :=
  List.map_congr_left h

/-- The fields of RESULT after SYNC_DETECT on the contents `B`: the three parts, each whatever the others are, and their conjunction
(43_sync_subheader.md R152). -/
def syncBits (B : Int → Byte) : ResultBits :=
  { matched := hdrOk B, syncOk := syncOk B, modeOk := modeOk B, rsvdOk := rsvdOk B }

/-- The detector rests on the bytes of its footprint alone. -/
theorem syncBits_congr {B C : Int → Byte} (h : ∀ k ∈ syncFootprint, B k = C k) : syncBits B = syncBits C := by
  simp only [syncFootprint, List.forall_mem_append, List.forall_mem_singleton] at h
  obtain ⟨⟨hsync, hmode⟩, hrsvd⟩ := h
  have hs : syncOk B = syncOk C := by rw [syncOk, syncOk, byteRange_congr hsync]
  have hm : modeOk B = modeOk C := congrArg (· == 0x01#8) hmode
  have hr : rsvdOk B = rsvdOk C := by rw [rsvdOk, rsvdOk, byteRange_congr hrsvd]
  simp only [syncBits, hdrOk, hs, hm, hr]

/-- The subheader check rests on the eight bytes of the two copies alone. -/
theorem subCheck_congr {B C : Int → Byte} (h : ∀ k ∈ List.range' 0x000 8, B k = C k) : subCheck B = subCheck C := by
  have hfirst : byteRange B 0 4 = byteRange C 0 4 := byteRange_congr fun k hk => h k (by rw [List.mem_range'_1] at hk ⊢; omega)
  have hsecond : byteRange B 4 4 = byteRange C 4 4 := byteRange_congr fun k hk => h k (by rw [List.mem_range'_1] at hk ⊢; omega)
  rw [subCheck_eq_byteRange, hfirst, hsecond, subCheck_eq_byteRange]

/-! ### The bits of RESULT -/

/-- MATCH is bit 0, SYNC_OK bit 3, MODE_OK bit 4 and RSVD_OK bit 5 of RESULT (10_state.md R25). -/
theorem packResult_parts (sync mode rsvd : Bool) :
    packResult { matched := sync && mode && rsvd, syncOk := sync, modeOk := mode, rsvdOk := rsvd }
      = BitVec.ofNat 32 ((if sync = true ∧ mode = true ∧ rsvd = true then 1 else 0) + (if sync = true then 8 else 0)
          + (if mode = true then 16 else 0) + (if rsvd = true then 32 else 0)) := by
  revert sync mode rsvd
  decide

open Classical in
theorem packResult_syncBits (B : Int → Byte) :
    packResult (syncBits B) = BitVec.ofNat 32
      ((if SyncOk B ∧ ModeOk B ∧ RsvdOk B then 1 else 0) + (if SyncOk B then 8 else 0)
        + (if ModeOk B then 16 else 0) + (if RsvdOk B then 32 else 0)) := by
  simp only [← syncOk_iff, ← modeOk_iff, ← rsvdOk_iff]
  exact packResult_parts _ _ _

open Classical in
theorem packResult_subCheck (B : Int → Byte) :
    packResult { matched := subCheck B } = if SubOk B then 1#32 else 0#32 := by
  simp only [← subCheck_iff]
  exact packResult_matched _

/-! ### The issue without a check, and the completion on given contents -/

/-- A legal word whose two checks pass is accepted. -/
theorem issue_of_checks {w : Word} {s : State} (hlegal : isLegal w = true) (hrange : rangeOk w s = true)
    (hpre : precondOk w s = true) : issue w s = accepted w s := by
  rw [issue_of_rangeOk_iff hlegal hpre Iff.rfl, if_pos hrange]

/-- Where the buffer holds the bytes of `B`, a command reads them. -/
theorem byteAt_of_holds {m : Memory} {B : Int → Byte} {offsets : List Nat} (h : Holds m B offsets) :
    ∀ k ∈ offsets, m.byteAt k = B k :=
  fun k hk => Memory.byteAt_of_read (h k hk)

theorem completeIfWritten_of_holds {B : Int → Byte} {offsets : List Nat} {s : State} (h : Holds s.buf B offsets) (t : State) :
    completeIfWritten offsets t s = .next t :=
  completeIfWritten_next.2 ⟨fun k hk => ⟨B k, h k hk⟩, rfl⟩

/-! ### SYNC_DETECT -/

theorem syncFootprint_pairwise_lt : syncFootprint.Pairwise (· < ·) := by decide

theorem exec_syncDetect_of_idle {s : State} (h : s.engine = .idle) : exec .syncDetect s = .next (issue 4#32 s) :=
  commandStep_of_idle h _ _

theorem exec_syncDetect_of_isBusy {s : State} (h : IsBusy s) :
    exec .syncDetect s = completeIfWritten syncFootprint (completed (packResult (syncBits s.buf.byteAt)) s) s :=
  h.elim fun _ hp => commandStep_of_busy hp _ _

/-- Settles O29: the issue has no check that fails, the completion packs the three parts of the bytes held, and the footprint rises, so
that its first unwritten byte is its lowest. -/
theorem syncDetectReportsItsThreeParts : Obligations.SyncDetectReportsItsThreeParts := by
  refine ⟨rfl, fun s => ⟨fun hidle => ?_, fun hbusy => ⟨fun B hB => ?_, fun k hk => ?_⟩⟩⟩
  · rw [exec_syncDetect_of_idle hidle, issue_of_checks rfl rfl rfl]
  · have hholds : Holds s.buf B syncFootprint := hB
    rw [exec_syncDetect_of_isBusy hbusy, completeIfWritten_of_holds hholds, syncBits_congr (byteAt_of_holds hholds),
      packResult_syncBits]
  · rw [exec_syncDetect_of_isBusy hbusy, completeIfWritten_fault]
    exact firstUnwritten_of_lowestUnwritten syncFootprint_pairwise_lt hk

/-! ### SUBHDR_CHECK -/

theorem exec_subhdrCheck_of_idle {s : State} (h : s.engine = .idle) : exec .subhdrCheck s = .next (issue 5#32 s) :=
  commandStep_of_idle h _ _

theorem exec_subhdrCheck_of_isBusy {s : State} (h : IsBusy s) :
    exec .subhdrCheck s = completeIfWritten (List.range' 0x000 8)
      (completed (packResult { matched := subCheck s.buf.byteAt }) s) s :=
  h.elim fun _ hp => commandStep_of_busy hp _ _

/-- Settles O30: the issue has no check that fails, the completion compares the two copies held, and the fault is at the lowest unwritten
byte of the eight. -/
theorem subhdrCheckComparesTheCopies : Obligations.SubhdrCheckComparesTheCopies := by
  refine ⟨rfl, fun s => ⟨fun hidle => ?_, fun hbusy => ⟨fun B hB => ?_, fun k hk => ?_⟩⟩⟩
  · rw [exec_subhdrCheck_of_idle hidle, issue_of_checks rfl rfl rfl]
  · have hholds : Holds s.buf B (List.range' 0x000 8) := hB
    rw [exec_subhdrCheck_of_isBusy hbusy, completeIfWritten_of_holds hholds, subCheck_congr (byteAt_of_holds hholds),
      packResult_subCheck]
  · rw [exec_subhdrCheck_of_isBusy hbusy, completeIfWritten_range'_fault hk]

end Sys2Proof
end

section
/-!
The sector classifier and NOP (44_classify.md): the bytes that a classification rests on, the bits of its verdict, and the commands
CLASSIFY and NOP at their issue, their completion and, for CLASSIFY, its fault.
-/

namespace Sys2Proof

open Machine Claims

/-! ### Contents that agree below an offset -/

section
variable {B C : Int → Byte} {n : Nat} (h : ∀ k : Nat, k < n → B k = C k)
include h

theorem byteRange_congr_of_lt {lo len : Nat} (hle : lo + len ≤ n) : byteRange B lo len = byteRange C lo len :=
  byteRange_congr fun k hk => h k (by rw [List.mem_range'_1] at hk; omega)

theorem le32_congr_of_lt {k : Nat} (hle : k + 4 ≤ n) : le32 B k = le32 C k := by
  apply BitVec.eq_of_toNat_eq
  rw [toNat_le32, toNat_le32, h k (by omega), h (k + 1) (by omega), h (k + 2) (by omega), h (k + 3) (by omega)]

theorem eccVerify_congr_of_lt {vb : Int} {za : Bool} {dest : Nat} (hin : ∀ j, InReadSet vb za dest j → 0 ≤ j ∧ j < n) :
    eccVerify B vb za dest = eccVerify C vb za dest := by
  refine eccVerify_congr fun j hj => ?_
  obtain ⟨hlo, hhi⟩ := hin j hj
  obtain ⟨k, rfl⟩ := Int.eq_ofNat_of_zero_le hlo
  exact h k (by omega)

theorem hdrOk_congr_of_lt (hn : 2352 ≤ n) : hdrOk B = hdrOk C := by
  have hbelow : ∀ k ∈ syncFootprint, k < 2352 := by decide
  exact congrArg ResultBits.matched (syncBits_congr fun k hk => h k (Nat.lt_of_lt_of_le (hbelow k hk) hn))

end

/-! ### The bytes that a classification rests on -/

/-- The parity check of the mode-1 candidate reads up to the end of a 2352-byte sector. -/
theorem inReadSet_mode1_bounds {j : Int} (hj : InReadSet 0 false 0x81C j) : 0 ≤ j ∧ j < (2352 : Nat) := by
  have hset := (inReadSet_iff.1 hj).1
  omega

/-- The parity check of the form-1 candidate stays inside a 2336-byte sector: zero-address mode masks the offsets below 0. -/
theorem inReadSet_mode2Form1_bounds {j : Int} (hj : InReadSet (-16) true 0x80C j) : 0 ≤ j ∧ j < (2336 : Nat) := by
  obtain ⟨hset, hfield⟩ := inReadSet_iff.1 hj
  simp only [true_and] at hfield
  omega

/-- Steps 4 to 7 read 2336 bytes, and the last 16 bytes of a sector only while the mode-1 candidate survives. -/
theorem classifyRegions_congr {B C : Int → Byte} {c1 : Bool} (h : ∀ k : Nat, k < 2336 → B k = C k)
    (h1 : c1 = true → ∀ k : Nat, k < 2352 → B k = C k) (c2 c3 : Bool) :
    classifyRegions B c1 c2 c3 = classifyRegions C c1 c2 c3 := by
  have hform1 : eccVerify B (-16) true 0x80C = eccVerify C (-16) true 0x80C :=
    eccVerify_congr_of_lt h fun _ => inReadSet_mode2Form1_bounds
  have hmode1 : ∀ edc : Bool, (c1 && edc && eccVerify B 0 false 0x81C == (true, true))
      = (c1 && edc && eccVerify C 0 false 0x81C == (true, true)) := by
    intro edc
    cases c1 with
    | false => simp only [Bool.false_and]
    | true => rw [eccVerify_congr_of_lt (h1 rfl) fun _ => inReadSet_mode1_bounds]
  simp only [classifyRegions, byteRange_congr_of_lt h (lo := 0x000) (len := 0x808) (by decide),
    byteRange_congr_of_lt h (lo := 0x808) (len := 8) (by decide), byteRange_congr_of_lt h (lo := 0x810) (len := 0x10C) (by decide),
    le32_congr_of_lt h (k := 0x808) (by decide), le32_congr_of_lt h (k := 0x810) (by decide),
    le32_congr_of_lt h (k := 0x91C) (by decide), hform1, hmode1]

/-- A classification rests on the bytes of its footprint alone (44_classify.md R162). -/
theorem classify_congr {B C : Int → Byte} {m1 : Bool} (h : ∀ k : Nat, k < (if m1 then 2352 else 2336) → B k = C k) (avail : Nat) :
    classify B avail m1 = classify C avail m1 := by
  have hbelow : ∀ k : Nat, k < 2336 → B k = C k := fun k hk => h k (by split <;> omega)
  have hwhole : m1 = true → ∀ k : Nat, k < 2352 → B k = C k := fun hm1 => by simpa [hm1] using h
  have hsub : subCheck B = subCheck C := subCheck_congr fun k hk => hbelow k (by rw [List.mem_range'_1] at hk; omega)
  have hhdr : (m1 && hdrOk B) = (m1 && hdrOk C) := by
    cases m1 with
    | false => simp only [Bool.false_and]
    | true => rw [hdrOk_congr_of_lt (hwhole rfl) (Nat.le_refl _)]
  have hregions : ∀ c2 c3, classifyRegions B (m1 && hdrOk C) c2 c3 = classifyRegions C (m1 && hdrOk C) c2 c3 :=
    classifyRegions_congr hbelow fun hc1 => hwhole (Bool.and_eq_true_iff.1 hc1).1
  simp only [classify, hsub, hhdr, hregions]

theorem classify_of_short {avail : Nat} (h : avail < 2336) (B : Int → Byte) (m1 : Bool) :
    classify B avail m1 = ⟨.literal, false, false, false⟩ :=
  if_pos h

theorem classifyFootprint_of_short {avail : Nat} (h : avail < 2336) (m1 : Bool) : classifyFootprint avail m1 = [] :=
  if_pos h

/-- From 2336 bytes on the footprint is the whole set, whatever the cascade decides (44_classify.md R162). -/
theorem classifyFootprint_of_le {avail : Nat} (h : 2336 ≤ avail) (m1 : Bool) :
    classifyFootprint avail m1 = List.range (if m1 then 2352 else 2336) := by
  rw [classifyFootprint, if_neg h.not_gt, apply_ite List.range]

/-! ### The bits of RESULT -/

/-- The fields of RESULT that a verdict sets (44_classify.md R162). -/
def verdictBits (v : Verdict) : ResultBits :=
  { matched := v.cls != .literal, cls := classTag v.cls, candM1 := v.c1, candM2f1 := v.c2, candM2f2 := v.c3 }

/-- MATCH is bit 0, CLASS bits 2:1 and the three candidates bits 6 to 8 of RESULT (10_state.md R25). -/
theorem packResult_verdictBits (v : Verdict) :
    packResult (verdictBits v) = BitVec.ofNat 32
      ((if v.cls = .literal then 0 else 1) + 2 * (classTag v.cls).toNat + 64 * v.c1.toNat + 128 * v.c2.toNat
        + 256 * v.c3.toNat) := by
  obtain ⟨cls, c1, c2, c3⟩ := v
  revert c1 c2 c3
  cases cls <;> decide

/-! ### CLASSIFY -/

theorem cmdWord_classify (m1 : Bool) : cmdWord 6#4 false false m1 = if m1 then 0x46#32 else 0x06#32 := by
  cases m1 <;> rfl

theorem isLegal_classify (m1 : Bool) : isLegal (cmdWord 6#4 false false m1) = true := by
  cases m1 <;> rfl

theorem rangeOk_classify (m1 : Bool) (s : State) : rangeOk (cmdWord 6#4 false false m1) s = true := by
  cases m1 <;> rfl

/-- The precondition bears on M1 = 1 alone (60_exceptions.md R190). -/
theorem precondOk_classify (m1 : Bool) (s : State) :
    precondOk (cmdWord 6#4 false false m1) s = true ↔ m1 = false ∨ 2352 ≤ s.avail.toNat := by
  cases m1 with
  | false => exact iff_of_true rfl (.inl rfl)
  | true =>
    have hword : precondOk (cmdWord 6#4 false false true) s = !decide (s.avail.toNat < 2352) := rfl
    simp [hword]

/-- A legal word in range that fails its precondition is rejected with PRECOND. -/
theorem issue_of_not_precondOk {w : Word} {s : State} (hlegal : isLegal w = true) (hrange : rangeOk w s = true)
    (hpre : precondOk w s = false) : issue w s = rejected w 3#4 s := by
  have hissue : issue w s = (s.latchCmd w).reject .precond := by simpa [hlegal, hrange, hpre] using issue_cases w s
  rw [hissue, reject_latchCmd_eq_rejected, errNumber]

/-- The issue of the two words turns on the precondition alone. -/
theorem issue_classify (m1 : Bool) (s : State) :
    issue (cmdWord 6#4 false false m1) s = if m1 = false ∨ 2352 ≤ s.avail.toNat
      then accepted (if m1 then 0x46#32 else 0x06#32) s else rejected (if m1 then 0x46#32 else 0x06#32) 3#4 s := by
  rw [← cmdWord_classify]
  split_ifs with hpre
  · exact issue_of_checks (isLegal_classify m1) (rangeOk_classify m1 s) ((precondOk_classify m1 s).2 hpre)
  · exact issue_of_not_precondOk (isLegal_classify m1) (rangeOk_classify m1 s)
      (Bool.eq_false_iff.2 (hpre ∘ (precondOk_classify m1 s).1))

theorem exec_classify_of_idle {s : State} (h : s.engine = .idle) (m1 : Bool) :
    exec (.classify m1) s = .next (issue (cmdWord 6#4 false false m1) s) :=
  commandStep_of_idle h _ _

theorem exec_classify_of_busy {s : State} {p : Pending} (h : s.engine = .busy p) (m1 : Bool) :
    exec (.classify m1) s = completeIfWritten (classifyFootprint p.avail.toNat m1)
      (completed (packResult (verdictBits (classify s.buf.byteAt p.avail.toNat m1))) s) s :=
  commandStep_of_busy h _ _

/-- Below 2336 bytes the completion reads nothing, so that it cannot fault. -/
theorem exec_classify_of_busy_short {s : State} {p : Pending} (h : s.engine = .busy p) (hshort : p.avail.toNat < 2336) (m1 : Bool) :
    exec (.classify m1) s = .next (completed 0#32 s) := by
  have hresult : packResult (verdictBits ⟨.literal, false, false, false⟩) = 0#32 := rfl
  rw [exec_classify_of_busy h, classifyFootprint_of_short hshort, classify_of_short hshort, hresult]
  exact completeIfWritten_next.2 ⟨fun k hk => absurd hk List.not_mem_nil, rfl⟩

/-- Settles O31: the issue by its precondition, the completion on the bytes of the footprint alone, and the footprint rises, so that its
first unwritten byte is its lowest. -/
theorem classifyReportsItsVerdict : Obligations.ClassifyReportsItsVerdict := by
  refine ⟨rfl, rfl, fun m1 s => ⟨fun hidle => ⟨fun hpre => ?_, fun hm1 hshort => ?_⟩, fun p hp =>
    ⟨fun hshort => exec_classify_of_busy_short hp hshort m1, fun hlong B hB v hv => ?_, fun hlong k hk => ?_⟩⟩⟩
  · rw [exec_classify_of_idle hidle, issue_classify, if_pos hpre]
  · rw [exec_classify_of_idle hidle, issue_classify, if_neg (by simp [hm1, hshort]), if_pos hm1]
  · have hverdict : classify s.buf.byteAt p.avail.toNat m1 = v :=
      (classify_congr (fun k hk => byteAt_of_holds hB k (List.mem_range.2 hk)) _).trans hv.symm
    rw [exec_classify_of_busy hp, classifyFootprint_of_le hlong, completeIfWritten_of_holds hB, hverdict, packResult_verdictBits]
  · rw [exec_classify_of_busy hp, classifyFootprint_of_le hlong, completeIfWritten_fault]
    exact firstUnwritten_of_lowestUnwritten List.pairwise_lt_range hk

/-! ### NOP -/

theorem exec_nop_of_idle {s : State} (h : s.engine = .idle) : exec .nop s = .next (issue 0#32 s) :=
  commandStep_of_idle h _ _

theorem exec_nop_of_isBusy {s : State} (h : IsBusy s) : exec .nop s = .next (completed 0#32 s) :=
  h.elim fun _ hp => commandStep_of_busy hp _ _

/-- Settles O25: the issue has no check that fails, and the completion names no field of RESULT. -/
theorem nopOnlyCompletes : Obligations.NopOnlyCompletes := by
  refine ⟨rfl, fun s => ⟨fun hidle => ?_, exec_nop_of_isBusy⟩⟩
  rw [exec_nop_of_idle hidle, issue_of_checks rfl rfl rfl]

end Sys2Proof
end

section
/-!
The register accesses of the host (45_host_access.md R250, R252 to R258): what each read returns, STATUS from its four flags, and what
each write of a register stores. That nothing but an ERRCODE write or a reset clears a recorded error (R253, 60_exceptions.md R181) goes
through the shared operations: none of them touches a code that is already recorded.
-/

namespace Sys2Proof

open Machine Claims

/-! ### Reads -/

theorem isBusy_iff (s : State) : s.isBusy = true ↔ IsBusy s := by
  unfold State.isBusy IsBusy
  cases s.engine <;> simp

/-- The four flags stand at bits of their own, so that joining them is adding them (10_state.md R23). -/
theorem bitWord_or_eq_statusWord : ∀ busy done err irq : Bool,
    bitWord busy ||| bitWord done <<< 1 ||| bitWord err <<< 2 ||| bitWord irq <<< 3 = statusWord busy done err irq := by
  decide

theorem status_eq_statusWord (s : State) : s.status = statusWord s.isBusy s.done s.err s.irq :=
  bitWord_or_eq_statusWord _ _ _ _

theorem err_eq_decide (s : State) : s.err = decide (s.errcode ≠ 0#4) := by
  rw [State.err, Bool.eq_iff_iff]
  simp

theorem exec_rd32Status (s : State) : exec .rd32Status s = .next (returned s.status s) := rfl

theorem exec_rd32Errcode (s : State) : exec .rd32Errcode s = .next (returned (s.errcode.setWidth 32) s) := rfl

theorem exec_rd32IrqEn (s : State) : exec .rd32IrqEn s = .next (returned (s.irqEn.setWidth 32) s) := rfl

/-- Settles O12: the reads of stored words are their definitions; STATUS is its four flags, ERRCODE and IRQ_EN their codes as words. -/
theorem registerReadsReturnTheirValues : Obligations.RegisterReadsReturnTheirValues := by
  refine ⟨fun s busy hbusy => ⟨rfl, rfl, ?status, ?errcode, rfl, rfl, rfl, rfl, rfl, rfl, rfl, rfl, ?irqEn⟩,
    fun v => ⟨rfl, rfl, rfl, rfl, rfl, rfl, rfl, rfl, rfl, rfl, rfl, rfl, rfl⟩⟩
  case status =>
    have hflag : s.isBusy = busy := Bool.eq_iff_iff.2 ((isBusy_iff s).trans hbusy.symm)
    rw [exec_rd32Status, status_eq_statusWord, hflag, State.irq, err_eq_decide]
  case errcode => rw [exec_rd32Errcode, BitVec.ofNat_toNat]
  case irqEn => rw [exec_rd32IrqEn, BitVec.ofNat_toNat]

/-! ### Writes in every phase -/

theorem exec_wr32Status (v : Word) (s : State) :
    exec (.wr32Status v) s = .next { s with done := s.done && !v.getLsbD 1 } := rfl

/-- Settles O15: bit 1 of the data on numbers. -/
theorem statusWriteClearsDone : Obligations.StatusWriteClearsDone := by
  intro v s
  have hbit : v.getLsbD 1 = decide (v.toNat / 2 % 2 = 1) := by
    rw [← BitVec.testBit_toNat, Nat.testBit_eq_decide_div_mod_eq, pow_one]
  refine ⟨rfl, ?_⟩
  rw [exec_wr32Status, hbit]
  by_cases h : v.toNat / 2 % 2 = 1 <;> simp [h]

theorem exec_wr32IrqEn (v : Word) (s : State) : exec (.wr32IrqEn v) s = .next { s with irqEn := v.setWidth 2 } := rfl

/-- Settles O17: the two low bits of the data are the enables, and the interrupt is read off the state after the write. -/
theorem irqEnWriteSetsTheEnables : Obligations.IrqEnWriteSetsTheEnables := by
  intro v s
  have henables : v.setWidth 2 = BitVec.ofNat 2 (v.toNat % 4) := by
    apply BitVec.eq_of_toNat_eq
    rw [BitVec.toNat_setWidth, BitVec.toNat_ofNat, Nat.mod_mod]
  refine ⟨rfl, _, exec_wr32IrqEn v s, by rw [henables], ?_⟩
  simp [State.irq, State.err]

/-! ### Protected writes of a register -/

theorem exec_wr32EdcAcc (v : Word) (s : State) :
    exec (.wr32EdcAcc v) s = .next (s.protectedWrite fun s => { s with edcAcc := v }) := rfl

theorem exec_wr32ArgOff (v : Word) (s : State) :
    exec (.wr32ArgOff v) s = .next (s.protectedWrite fun s => { s with argOff := v }) := rfl

theorem exec_wr32ArgLen (v : Word) (s : State) :
    exec (.wr32ArgLen v) s = .next (s.protectedWrite fun s => { s with argLen := v }) := rfl

theorem exec_wr32Avail (v : Word) (s : State) :
    exec (.wr32Avail v) s = .next (s.protectedWrite fun s => { s with avail := v }) := rfl

/-- Settles O18: each is a protected write, so the phase alone decides. -/
theorem operandWritesStoreOrAreIgnored : Obligations.OperandWritesStoreOrAreIgnored := by
  intro v s
  refine ⟨⟨rfl, rfl, rfl, rfl⟩, fun hidle => ?_, fun hbusy => ?_⟩
  · simp only [exec_wr32EdcAcc, exec_wr32ArgOff, exec_wr32ArgLen, exec_wr32Avail, protectedWrite_of_idle hidle, and_self]
  · simp only [exec_wr32EdcAcc, exec_wr32ArgOff, exec_wr32ArgLen, exec_wr32Avail, protectedWrite_of_isBusy hbusy, and_self]

/-! ### A recorded error under the shared operations -/

/-- The code that an outcome leaves, where it leaves a next state. -/
def LeavesErrcode (o : Out) (c : BitVec 4) : Prop := ∀ t, o = .next t → t.errcode = c

theorem leavesErrcode_next {t : State} {c : BitVec 4} : LeavesErrcode (.next t) c ↔ t.errcode = c := by
  simp [LeavesErrcode]

section

variable {s : State}

/-- The first error stays (60_exceptions.md R181). -/
theorem raise_errcode_of_ne_zero (h : s.errcode ≠ 0#4) (c : ErrCode) : (s.raise c).errcode = s.errcode := by
  simp [h]

theorem protectedWrite_errcode_of_ne_zero (h : s.errcode ≠ 0#4) {f : State → State} (hf : (f s).errcode = s.errcode) :
    (s.protectedWrite f).errcode = s.errcode := by
  obtain ⟨-, heq⟩ | ⟨_, -, heq⟩ := s.protectedWrite_cases f
  · rw [heq, hf]
  · rw [heq, raise_errcode_of_ne_zero h]

theorem issue_errcode_of_ne_zero (h : s.errcode ≠ 0#4) (w : Word) : (issue w s).errcode = s.errcode := by
  obtain ⟨-, heq⟩ | ⟨-, -, heq⟩ | ⟨-, -, -, heq⟩ | ⟨-, -, -, heq⟩ := issue_cases w s <;> simp [heq, h]

theorem commandStep_leavesErrcode (h : s.errcode ≠ 0#4) {w : Word} {run : Pending → Out}
    (hrun : ∀ p, LeavesErrcode (run p) s.errcode) : LeavesErrcode (commandStep w run s) s.errcode := by
  obtain ⟨-, heq⟩ | ⟨p, -, heq⟩ := commandStep_cases w run s
  · rw [heq, leavesErrcode_next, issue_errcode_of_ne_zero h]
  · rw [heq]
    exact hrun p

theorem completeIfWritten_leavesErrcode {offsets : List Nat} {t : State} (ht : t.errcode = s.errcode) :
    LeavesErrcode (completeIfWritten offsets t s) s.errcode := by
  intro t' hnext
  obtain ⟨-, rfl⟩ := completeIfWritten_next.1 hnext
  exact ht

theorem readBuf_leavesErrcode (n k : Nat) : LeavesErrcode (readBuf n k s) s.errcode := by
  intro t hnext
  obtain ⟨-, rfl⟩ := readBuf_next.1 hnext
  rfl

end

/-- No instruction but an ERRCODE write touches a recorded error: a command issues or completes, a protected write is done or ignored, a
read only answers. -/
theorem exec_leavesErrcode {s : State} (h : s.errcode ≠ 0#4) {i : Instr} (hi : ∀ v, i ≠ .wr32Errcode v) :
    LeavesErrcode (exec i s) s.errcode := by
  cases i
  case wr32Errcode v => exact absurd rfl (hi v)
  case nop => exact commandStep_leavesErrcode h fun _ => leavesErrcode_next.2 rfl
  case illegalCmd => exact commandStep_leavesErrcode h fun _ => leavesErrcode_next.2 (raise_errcode_of_ne_zero h _)
  case edcBlock | edcCompare | eccVerify | syncDetect | subhdrCheck | classify =>
    exact commandStep_leavesErrcode h fun _ => completeIfWritten_leavesErrcode rfl
  case wr32Cmd => exact leavesErrcode_next.2 (protectedWrite_errcode_of_ne_zero h (issue_errcode_of_ne_zero h _))
  case wr32EdcAcc | wr32ArgOff | wr32ArgLen | wr32Avail | wr8EdcData | wr16EdcData | wr32EdcData | wr8Buf | wr16Buf | wr32Buf =>
    exact leavesErrcode_next.2 (protectedWrite_errcode_of_ne_zero h rfl)
  case rd8Buf | rd16Buf | rd32Buf => exact readBuf_leavesErrcode _ _
  case illegalAccess d =>
    rw [exec_illegalAccess, execIllegalAccess, leavesErrcode_next, apply_ite State.errcode, State.answer_errcode,
      raise_errcode_of_ne_zero h, ite_self]
  all_goals exact leavesErrcode_next.2 rfl

/-! ### Which steps clear a recorded error -/

theorem decodeCmd32_ne_wr32Errcode (w v : Word) : decodeCmd32 w ≠ .wr32Errcode v := by
  unfold decodeCmd32
  split <;> simp

theorem decodeWindow_ne_wr32Errcode (d : Descriptor) (v w : Word) : decodeWindow d v ≠ .wr32Errcode w := by
  unfold decodeWindow
  dsimp only
  split_ifs <;> simp

/-- One descriptor alone is the ERRCODE write. -/
theorem eq_of_decodeAcc16_eq_wr32Errcode {d : Descriptor} {v w : Word} (h : decodeAcc16 d v = .wr32Errcode w) : d = 0xC00C#16 := by
  unfold decodeAcc16 at h
  split at h
  case h_16 => rfl
  case h_25 => exact absurd h (decodeWindow_ne_wr32Errcode d v w)
  all_goals simp at h

theorem step_of_fetch_run {s u : State} {i : Instr} (h : fetch s = .run i u) : step s = exec i u := by
  rw [step, h]

theorem step_of_fetch_rest {s u : State} (h : fetch s = .rest u) : step s = .next u := by
  rw [step, h]

theorem step_of_fetch_stopped {s : State} {k : Nat} (h : fetch s = .stopped k) : step s = .fault (.uninitRead k) := by
  rw [step, h]

/-- A turn of the engine keeps a recorded error, busy or not. -/
theorem step_leavesErrcode_of_engineTurn {s u : State} (hfetch : fetch s = engineTurn u) (h : u.errcode ≠ 0#4) :
    LeavesErrcode (step s) u.errcode := by
  obtain ⟨-, hturn⟩ | ⟨p, -, hturn⟩ := engineTurn_cases u
  · rw [step_of_fetch_rest (hfetch.trans hturn), leavesErrcode_next]
  · rw [step_of_fetch_run (hfetch.trans hturn)]
    exact exec_leavesErrcode h (decodeCmd32_ne_wr32Errcode p.word)

/-- A step keeps a recorded error, unless it is an ERRCODE write or a reset (60_exceptions.md R181). -/
theorem step_leavesErrcode {s : State} (h : s.errcode ≠ 0#4) (hwrite : ∀ v later, s.inputs ≠ .access 0xC00C#16 v :: later)
    (hreset : ∀ later, s.inputs ≠ .reset :: later) : LeavesErrcode (step s) s.errcode := by
  obtain ⟨k, -, hfetch⟩ | ⟨-, -, hfetch⟩ | ⟨d, v, later, -, hin, hfetch⟩ | ⟨later, -, -, hfetch⟩ | ⟨later, -, hin, -⟩ :=
    fetch_cases s
  · simp [LeavesErrcode, step_of_fetch_stopped hfetch]
  · exact step_leavesErrcode_of_engineTurn hfetch h
  · rw [step_of_fetch_run hfetch]
    refine exec_leavesErrcode (s := { s with inputs := later }) h fun w hdecode => hwrite v later ?_
    rw [hin, eq_of_decodeAcc16_eq_wr32Errcode hdecode]
  · exact step_leavesErrcode_of_engineTurn (u := { s with inputs := later }) hfetch h
  · exact absurd hin (hreset later)

/-- Settles O16: the write by its definition; of the other steps, those that are no reset keep a recorded error. -/
theorem errcodeWriteClearsTheError : Obligations.ErrcodeWriteClearsTheError := by
  refine ⟨fun v s => ⟨rfl, _, rfl, rfl, rfl⟩, fun s t hstep hne hclear => ?_⟩
  by_contra! hother
  obtain ⟨hwrite, hreset⟩ := hother
  exact hne ((step_leavesErrcode hne hwrite hreset t hstep).symm.trans hclear)

end Sys2Proof
end

section
/-!
The two regions of the window with an offset field: the tables and the sector buffer (20_memory.md R51 to R55). First which read or write
a descriptor of either region decodes to; then the bytes of an access as one number, little-endian; then what the reads of the tables
(45_host_access.md R259) and the reads and writes of the buffer (R260, R261) do.
-/

namespace Sys2Proof

open Machine Claims

/-! ### Descriptors of the two regions -/

/-- Where no register row matches, the rows with an offset field decide. -/
theorem decodeAcc16_of_not_mem {d : Descriptor} (h : d ∉ registerDescriptors) (v : Word) : decodeAcc16 d v = decodeWindow d v := by
  rw [registerDescriptors_eq] at h
  unfold decodeAcc16
  split
  case h_25 => rfl
  all_goals simp at h

/-- The register rows end below both regions. -/
theorem decode_accDescriptor_above (wr : Bool) (sz : BitVec 2) {off : BitVec 13} (h : 0x400 ≤ off.toNat) (v : Word) :
    decode (.acc16 (accDescriptor wr sz off) v) = decodeWindow (accDescriptor wr sz off) v := by
  refine decodeAcc16_of_not_mem ?_ v
  rw [mem_registerDescriptors_iff]
  omega

theorem decodeWindow_tables {sz : BitVec 2} {off : BitVec 13} (hsz : sz ≠ 3#2) (h : inRegion 0x400#13 0xA00#13 sz off = true)
    (v : Word) :
    decodeWindow (accDescriptor false sz off) v =
      if sz = 0#2 then .rd8Table off else if sz = 1#2 then .rd16Table off else .rd32Table off := by
  simp only [decodeWindow, accDescriptor_getLsbD_write, accDescriptor_extractLsb'_size, accDescriptor_extractLsb'_offset]
  simp [h, hsz]

/-- A read descriptor of the table region, by its size (30_encoding.md R83). -/
theorem decode_descriptor_tables {sz off : Nat} (hsz : sz < 3) (hlo : 0x400 ≤ off) (hhi : off < 0xA00) (halign : off % 2 ^ sz = 0)
    (v : Word) :
    decode (.acc16 (descriptor 0 sz off) v) =
      if sz = 0 then .rd8Table (BitVec.ofNat 13 off) else if sz = 1 then .rd16Table (BitVec.ofNat 13 off)
      else .rd32Table (BitVec.ofNat 13 off) := by
  have hoff : (BitVec.ofNat 13 off).toNat = off := Nat.mod_eq_of_lt (by omega)
  have hsize : (BitVec.ofNat 2 sz).toNat = sz := Nat.mod_eq_of_lt (by omega)
  have hregion : inRegion 0x400#13 0xA00#13 (BitVec.ofNat 2 sz) (BitVec.ofNat 13 off) = true := by
    rw [inRegion_iff, hoff, hsize]
    exact ⟨hlo, hhi, halign⟩
  have hread := (decode_accDescriptor_above false (BitVec.ofNat 2 sz) (hlo.trans_eq hoff.symm) v).trans
    (decodeWindow_tables (by interval_cases sz <;> decide) hregion v)
  rw [descriptor_eq_accDescriptor (by decide) (by omega) (by omega)]
  interval_cases sz <;> exact hread

theorem extractLsb'_accDescriptor_buffer (wr : Bool) (sz : BitVec 2) (k : Nat) :
    (accDescriptor wr sz (BitVec.ofNat 13 (0x1000 + k))).extractLsb' 0 12 = BitVec.ofNat 12 k := by
  apply BitVec.eq_of_toNat_eq
  rw [BitVec.extractLsb'_toNat, accDescriptor_toNat, BitVec.toNat_ofNat, BitVec.toNat_ofNat]
  omega

theorem decodeWindow_buffer (wr : Bool) {sz : BitVec 2} {k : Nat} (hsz : sz ≠ 3#2)
    (h : inRegion 0x1000#13 0x1930#13 sz (BitVec.ofNat 13 (0x1000 + k)) = true) (v : Word) :
    decodeWindow (accDescriptor wr sz (BitVec.ofNat 13 (0x1000 + k))) v =
      if wr then
        if sz = 0#2 then .wr8Buf (BitVec.ofNat 12 k) (v.setWidth 8) else if sz = 1#2 then .wr16Buf (BitVec.ofNat 12 k) (v.setWidth 16)
        else .wr32Buf (BitVec.ofNat 12 k) v
      else if sz = 0#2 then .rd8Buf (BitVec.ofNat 12 k) else if sz = 1#2 then .rd16Buf (BitVec.ofNat 12 k)
      else .rd32Buf (BitVec.ofNat 12 k) := by
  have htable : inRegion 0x400#13 0xA00#13 sz (BitVec.ofNat 13 (0x1000 + k)) = false := by
    rw [← Bool.not_eq_true]
    exact fun htable => by simp [inRegion_buffer_of_inRegion_tables htable] at h
  simp only [decodeWindow, accDescriptor_getLsbD_write, accDescriptor_extractLsb'_size, accDescriptor_extractLsb'_offset,
    extractLsb'_accDescriptor_buffer]
  simp [h, hsz, htable]

/-- A descriptor of the sector buffer, by its direction and size (30_encoding.md R83). -/
theorem decode_descriptor_buffer {w sz k : Nat} (hw : w < 2) (hsz : sz < 3) (hk : k < 2352) (halign : k % 2 ^ sz = 0) (v : Word) :
    decode (.acc16 (descriptor w sz (0x1000 + k)) v) =
      if w = 1 then
        if sz = 0 then .wr8Buf (BitVec.ofNat 12 k) (v.setWidth 8) else if sz = 1 then .wr16Buf (BitVec.ofNat 12 k) (v.setWidth 16)
        else .wr32Buf (BitVec.ofNat 12 k) v
      else if sz = 0 then .rd8Buf (BitVec.ofNat 12 k) else if sz = 1 then .rd16Buf (BitVec.ofNat 12 k)
      else .rd32Buf (BitVec.ofNat 12 k) := by
  have hoff : (BitVec.ofNat 13 (0x1000 + k)).toNat = 0x1000 + k := Nat.mod_eq_of_lt (by omega)
  have hsize : (BitVec.ofNat 2 sz).toNat = sz := Nat.mod_eq_of_lt (by omega)
  have hregion : inRegion 0x1000#13 0x1930#13 (BitVec.ofNat 2 sz) (BitVec.ofNat 13 (0x1000 + k)) = true := by
    rw [inRegion_iff, hoff, hsize]
    exact ⟨Nat.le_add_right _ _, Nat.add_lt_add_left hk 0x1000, by interval_cases sz <;> omega⟩
  have haccess := (decode_accDescriptor_above (decide (w = 1)) (BitVec.ofNat 2 sz) (by omega) v).trans
    (decodeWindow_buffer _ (by interval_cases sz <;> decide) hregion v)
  rw [descriptor_eq_accDescriptor hw (by omega) (by omega), haccess]
  interval_cases w <;> interval_cases sz <;> rfl

/-! ### The bytes of an access as a number -/

/-- A byte placed below the bits of a word, where nothing is shifted out. -/
theorem toNat_byte_or_shiftLeft {x : Word} (b : Byte) (hx : x.toNat < 2 ^ 24) :
    (b.setWidth 32 ||| x <<< 8).toNat = b.toNat + 256 * x.toNat := by
  have hbyte : (b.setWidth 32).toNat = b.toNat := BitVec.toNat_setWidth_of_le (by decide)
  have hshift : (x <<< 8).toNat = x.toNat <<< 8 := by
    rw [BitVec.toNat_shiftLeft]
    exact Nat.mod_eq_of_lt (by rw [Nat.shiftLeft_eq]; omega)
  rw [BitVec.toNat_or, hbyte, hshift, Nat.or_comm, ← Nat.shiftLeft_add_eq_or_of_lt b.isLt, Nat.shiftLeft_eq]
  omega

/-- Up to four bytes assembled little-endian are the digits of a number in base 256, the first the lowest (20_memory.md R55). -/
theorem toNat_leWord {bs : List Byte} (h : bs.length ≤ 4) : (leWord bs).toNat = Nat.ofDigits 256 (bs.map BitVec.toNat) := by
  induction bs with
  | nil => rfl
  | cons b bs ih =>
    have hlen : bs.length ≤ 3 := Nat.le_of_succ_le_succ h
    have hrest := ih (hlen.trans (by decide))
    have hdigits : Nat.ofDigits 256 (bs.map BitVec.toNat) < 256 ^ bs.length := by
      simpa using Nat.ofDigits_lt_base_pow_length (b := 256) (l := bs.map BitVec.toNat) (by decide)
        (List.forall_mem_map.2 fun b _ => b.isLt)
    have hfits : (leWord bs).toNat < 2 ^ 24 :=
      calc (leWord bs).toNat < 256 ^ bs.length := hrest ▸ hdigits
        _ ≤ 256 ^ 3 := Nat.pow_le_pow_right (by decide) hlen
    rw [List.map_cons, Nat.ofDigits_cons, ← hrest]
    exact toNat_byte_or_shiftLeft b hfits

theorem leWord_eq_ofNat {bs : List Byte} (h : bs.length ≤ 4) : leWord bs = BitVec.ofNat 32 (Nat.ofDigits 256 (bs.map BitVec.toNat)) := by
  rw [← toNat_leWord h, BitVec.ofNat_toNat, BitVec.setWidth_eq]

theorem leWord_one (b0 : Byte) : leWord [b0] = BitVec.ofNat 32 b0.toNat := by
  simp [leWord_eq_ofNat]

theorem leWord_two (b0 b1 : Byte) : leWord [b0, b1] = BitVec.ofNat 32 (b0.toNat + 256 * b1.toNat) := by
  simp [leWord_eq_ofNat, Nat.ofDigits_cons]

theorem leWord_four (b0 b1 b2 b3 : Byte) : leWord [b0, b1, b2, b3] = BitVec.ofNat 32 (leNat b0 b1 b2 b3) := by
  have hdigits : Nat.ofDigits 256 [b0.toNat, b1.toNat, b2.toNat, b3.toNat] = leNat b0 b1 b2 b3 := by
    simp only [Nat.ofDigits_cons, Nat.ofDigits_nil, leNat]
    omega
  rw [leWord_eq_ofNat (by simp)]
  exact congrArg _ hdigits

/-! ### Table reads -/

theorem exec_rd8Table {off : Nat} (h : off < 8192) (s : State) :
    exec (.rd8Table (BitVec.ofNat 13 off)) s = .next (returned (BitVec.ofNat 32 (tableByte off).toNat) s) := by
  rw [← leWord_one]
  exact congrArg (readTable 1 · s) (Nat.mod_eq_of_lt h)

theorem exec_rd16Table {off : Nat} (h : off < 8192) (s : State) :
    exec (.rd16Table (BitVec.ofNat 13 off)) s =
      .next (returned (BitVec.ofNat 32 ((tableByte off).toNat + 256 * (tableByte (off + 1)).toNat)) s) := by
  rw [← leWord_two]
  exact congrArg (readTable 2 · s) (Nat.mod_eq_of_lt h)

theorem exec_rd32Table {off : Nat} (h : off < 8192) (s : State) :
    exec (.rd32Table (BitVec.ofNat 13 off)) s =
      .next (returned (BitVec.ofNat 32
        (leNat (tableByte off) (tableByte (off + 1)) (tableByte (off + 2)) (tableByte (off + 3)))) s) := by
  rw [← leWord_four]
  exact congrArg (readTable 4 · s) (Nat.mod_eq_of_lt h)

/-- The EDC_LUT window holds the bytes of each entry, the lowest first (20_memory.md R52). -/
theorem toNat_tableByte_edcLut {off i j : Nat} (hi : i < 256) (hj : j < 4) (hoff : off = 0x400 + 4 * i + j) :
    (tableByte off).toNat = (edcLut (BitVec.ofNat 8 i)).toNat / 256 ^ j % 256 := by
  have hentry : (off - 0x400) / 4 = i := by omega
  have hbyte : (off - 0x400) % 4 = j := by omega
  rw [tableByte, if_pos (by omega), hentry, hbyte, BitVec.toNat_setWidth, BitVec.toNat_ushiftRight, Nat.shiftRight_eq_div_pow,
    pow_mul]
  rfl

/-- The four bytes of an entry make up the entry. -/
theorem leNat_tableByte_edcLut {i : Nat} (hi : i < 256) :
    leNat (tableByte (0x400 + 4 * i)) (tableByte (0x400 + 4 * i + 1)) (tableByte (0x400 + 4 * i + 2)) (tableByte (0x400 + 4 * i + 3))
      = (edcLut (BitVec.ofNat 8 i)).toNat := by
  rw [leNat, toNat_tableByte_edcLut (off := 0x400 + 4 * i) (j := 0) hi (by decide) rfl,
    toNat_tableByte_edcLut (j := 1) hi (by decide) rfl, toNat_tableByte_edcLut (j := 2) hi (by decide) rfl,
    toNat_tableByte_edcLut (j := 3) hi (by decide) rfl]
  omega

/-- Two neighbouring bytes of an entry make up its half. -/
theorem half_tableByte_edcLut {i h : Nat} (hi : i < 256) (hh : h < 2) :
    (tableByte (0x400 + 4 * i + 2 * h)).toNat + 256 * (tableByte (0x400 + 4 * i + 2 * h + 1)).toNat
      = (edcLut (BitVec.ofNat 8 i)).toNat / 65536 ^ h % 65536 := by
  rw [toNat_tableByte_edcLut (j := 2 * h) hi (by omega) rfl,
    toNat_tableByte_edcLut (off := 0x400 + 4 * i + 2 * h + 1) (j := 2 * h + 1) hi (by omega) rfl]
  interval_cases h <;> omega

theorem tableByte_eccF {i : Nat} (hi : i < 256) : tableByte (0x800 + i) = eccF (BitVec.ofNat 8 i) := by
  rw [tableByte, if_neg (by omega), if_pos (by omega), Nat.add_sub_cancel_left]

theorem tableByte_eccB (i : Nat) : tableByte (0x900 + i) = eccB (BitVec.ofNat 8 i) := by
  rw [tableByte, if_neg (by omega), if_neg (by omega), Nat.add_sub_cancel_left]

/-- Settles O13: each window gives its bytes by table and entry; those of an EDC_LUT entry make up its halves and the entry. -/
theorem tableReadsReturnTheTables : Obligations.TableReadsReturnTheTables := by
  refine fun s => ⟨fun i hi => ⟨?_, fun h hh => ?_, fun j hj => ?_, ?_, ?_⟩, fun i hi => ⟨?_, ?_⟩, fun i hi => ⟨?_, ?_⟩,
    fun off v hlo hhi => ⟨?_, fun halign => ?_, fun halign => ?_⟩⟩
  · rw [exec_rd32Table (by omega), leNat_tableByte_edcLut hi, BitVec.ofNat_toNat, BitVec.setWidth_eq]
  · rw [exec_rd16Table (by omega), half_tableByte_edcLut hi hh]
  · rw [exec_rd8Table (by omega), toNat_tableByte_edcLut hi hj rfl]
  · rw [exec_rd8Table (by omega), tableByte_eccF hi]
  · rw [exec_rd8Table (by omega), tableByte_eccB]
  · simp (disch := omega) only [exec_rd16Table, Nat.add_assoc, tableByte_eccF]
  · simp (disch := omega) only [exec_rd16Table, Nat.add_assoc, tableByte_eccB]
  · simp (disch := omega) only [exec_rd32Table, Nat.add_assoc, tableByte_eccF]
  · simp (disch := omega) only [exec_rd32Table, Nat.add_assoc, tableByte_eccB]
  · exact decode_descriptor_tables (by decide) hlo hhi (Nat.mod_one off) v
  · exact decode_descriptor_tables (by decide) hlo hhi halign v
  · exact decode_descriptor_tables (by decide) hlo hhi halign v

/-! ### Buffer reads -/

/-- A buffer read of written bytes answers them and changes nothing else. -/
theorem readBuf_of_reads {s : State} {k : Nat} {bs : List Byte} (h : ∀ j b, bs[j]? = some b → s.buf.read (k + j) = some b) :
    readBuf bs.length k s = .next (returned (leWord bs) s) := by
  refine readBuf_next.2 ⟨written_range'_of_reads h, ?_⟩
  have hbytes : (List.range' k bs.length).map (fun (j : Nat) => s.buf.byteAt j) = bs := byteRange_of_reads h
  rw [hbytes]
  rfl

/-- A buffer read faults at the lowest unwritten byte. -/
theorem readBuf_of_lowestUnwritten {s : State} {n k j : Nat} (h : LowestUnwritten s.buf (List.range' k n) j) :
    readBuf n k s = .fault (.uninitRead j) := by
  rw [readBuf, firstUnwritten_of_lowestUnwritten List.pairwise_lt_range' h]

theorem exec_rd8Buf {k : Nat} (h : k < 4096) (s : State) : exec (.rd8Buf (BitVec.ofNat 12 k)) s = readBuf 1 k s :=
  congrArg (readBuf 1 · s) (Nat.mod_eq_of_lt h)

theorem exec_rd16Buf {k : Nat} (h : k < 4096) (s : State) : exec (.rd16Buf (BitVec.ofNat 12 k)) s = readBuf 2 k s :=
  congrArg (readBuf 2 · s) (Nat.mod_eq_of_lt h)

theorem exec_rd32Buf {k : Nat} (h : k < 4096) (s : State) : exec (.rd32Buf (BitVec.ofNat 12 k)) s = readBuf 4 k s :=
  congrArg (readBuf 4 · s) (Nat.mod_eq_of_lt h)

/-- The bytes of a list stand from `k` upward: the first at `k`, the rest from the next offset. -/
theorem reads_cons_iff {m : Memory} {k : Nat} {b : Byte} {bs : List Byte} :
    (∀ j c, (b :: bs)[j]? = some c → m.read (k + j) = some c) ↔
      m.read k = some b ∧ ∀ j c, bs[j]? = some c → m.read (k + 1 + j) = some c := by
  constructor
  · intro h
    refine ⟨h 0 b rfl, fun j c hc => ?_⟩
    rw [Nat.add_right_comm]
    exact h (j + 1) c hc
  · rintro ⟨hfirst, hrest⟩ (_ | j) c hc
    · cases hc
      exact hfirst
    · rw [← Nat.add_assoc, Nat.add_right_comm]
      exact hrest j c hc

theorem reads_nil {m : Memory} {k : Nat} : ∀ j c, ([] : List Byte)[j]? = some c → m.read (k + j) = some c := by
  simp

/-- Settles O14: the bytes of a read stand in order, or the range of the read has a lowest unwritten byte. -/
theorem bufferReadsReturnTheirBytes : Obligations.BufferReadsReturnTheirBytes := by
  refine ⟨fun k s hk => ⟨fun b0 h0 => ?_, fun b0 b1 _ h0 h1 => ?_, fun b0 b1 b2 b3 _ h0 h1 h2 h3 => ?_,
    fun j hj => ?_, fun j _ hj => ?_, fun j _ hj => ?_⟩, fun k v hk => ⟨?_, fun halign => ?_, fun halign => ?_⟩⟩
  · rw [exec_rd8Buf (by omega), ← leWord_one]
    exact readBuf_of_reads (reads_cons_iff.2 ⟨h0, reads_nil⟩)
  · rw [exec_rd16Buf (by omega), ← leWord_two]
    exact readBuf_of_reads (reads_cons_iff.2 ⟨h0, reads_cons_iff.2 ⟨h1, reads_nil⟩⟩)
  · rw [exec_rd32Buf (by omega), ← leWord_four]
    exact readBuf_of_reads (reads_cons_iff.2 ⟨h0, reads_cons_iff.2 ⟨h1, reads_cons_iff.2 ⟨h2, reads_cons_iff.2 ⟨h3, reads_nil⟩⟩⟩⟩)
  · rw [exec_rd8Buf (by omega), readBuf_of_lowestUnwritten hj]
  · rw [exec_rd16Buf (by omega), readBuf_of_lowestUnwritten hj]
  · rw [exec_rd32Buf (by omega), readBuf_of_lowestUnwritten hj]
  · exact decode_descriptor_buffer (by decide) (by decide) hk (Nat.mod_one k) v
  · exact decode_descriptor_buffer (by decide) (by decide) hk halign v
  · exact decode_descriptor_buffer (by decide) (by decide) hk halign v

/-! ### Buffer writes -/

theorem writeBuf_of_idle {s : State} (h : s.engine = .idle) (n k : Nat) (v : Word) :
    writeBuf n k v s = { s with buf := s.buf.writeBytes k (laneBytes n v) } :=
  protectedWrite_of_idle h _

theorem writeBuf_of_isBusy {s : State} (h : IsBusy s) (n k : Nat) (v : Word) : writeBuf n k v s = withError 4#4 s :=
  protectedWrite_of_isBusy h _

/-- A write of the low `n` bytes of its data stores the lane `j - k` at each offset `j` of its range and leaves every other offset. -/
theorem read_writeBytes_laneBytes {width n : Nat} (v : BitVec width) (hn : 8 * n ≤ width) (hwidth : width ≤ 32) (m : Memory) (k j : Nat) :
    (m.writeBytes k (laneBytes n (v.setWidth 32))).read j =
      if k ≤ j ∧ j < k + n then some (v.extractLsb' (8 * (j - k)) 8) else m.read j := by
  have hlen : (laneBytes n (v.setWidth 32)).length = n := by simp [laneBytes]
  rw [Memory.read_writeBytes, hlen]
  refine if_ctx_congr Iff.rfl (fun hin => ?_) fun _ => rfl
  have hlane : j - k < n := by omega
  rw [laneBytes_eq_extractLsb', List.getElem?_map, List.getElem?_range hlane, Option.map_some,
    extractLsb'_setWidth_word v (by omega) hwidth]

theorem exec_wr8Buf {k : Nat} (h : k < 4096) (v : Byte) (s : State) :
    exec (.wr8Buf (BitVec.ofNat 12 k) v) s = .next (writeBuf 1 k (v.setWidth 32) s) :=
  congrArg (fun k => (.next (writeBuf 1 k (v.setWidth 32) s) : Out)) (Nat.mod_eq_of_lt h)

theorem exec_wr16Buf {k : Nat} (h : k < 4096) (v : BitVec 16) (s : State) :
    exec (.wr16Buf (BitVec.ofNat 12 k) v) s = .next (writeBuf 2 k (v.setWidth 32) s) :=
  congrArg (fun k => (.next (writeBuf 2 k (v.setWidth 32) s) : Out)) (Nat.mod_eq_of_lt h)

theorem exec_wr32Buf {k : Nat} (h : k < 4096) (v : Word) (s : State) :
    exec (.wr32Buf (BitVec.ofNat 12 k) v) s = .next (writeBuf 4 k v s) :=
  congrArg (fun k => (.next (writeBuf 4 k v s) : Out)) (Nat.mod_eq_of_lt h)

/-- Settles O20: while IDLE the lanes go to their offsets and no other; while BUSY a protected write is ignored. -/
theorem bufferWritesStoreTheirBytes : Obligations.BufferWritesStoreTheirBytes := by
  refine ⟨fun k s hk hidle => ⟨fun v => ⟨s.buf.writeBytes k (laneBytes 1 (v.setWidth 32)), ?_, fun j => ?_⟩,
      fun v _ => ⟨s.buf.writeBytes k (laneBytes 2 (v.setWidth 32)), ?_, fun j => ?_⟩,
      fun v _ => ⟨s.buf.writeBytes k (laneBytes 4 v), ?_, fun j => ?_⟩⟩,
    fun k s hbusy => ⟨fun v => ?_, fun v => ?_, fun v => ?_⟩, fun k v hk => ⟨?_, fun halign => ?_, fun halign => ?_⟩⟩
  · rw [exec_wr8Buf (by omega), writeBuf_of_idle hidle]
  · rw [laneBytes_one]
    exact Memory.read_write s.buf k j v
  · rw [exec_wr16Buf (by omega), writeBuf_of_idle hidle]
  · exact read_writeBytes_laneBytes v (by decide) (by decide) s.buf k j
  · rw [exec_wr32Buf (by omega), writeBuf_of_idle hidle]
  · simpa using read_writeBytes_laneBytes (n := 4) v (by decide) (by decide) s.buf k j
  · exact congrArg _ (writeBuf_of_isBusy hbusy _ _ _)
  · exact congrArg _ (writeBuf_of_isBusy hbusy _ _ _)
  · exact congrArg _ (writeBuf_of_isBusy hbusy _ _ _)
  · rw [← BitVec.setWidth_eq_extractLsb' (by decide)]
    exact decode_descriptor_buffer (by decide) (by decide) hk (Nat.mod_one k) v
  · rw [← BitVec.setWidth_eq_extractLsb' (by decide)]
    exact decode_descriptor_buffer (by decide) (by decide) hk halign v
  · exact decode_descriptor_buffer (by decide) (by decide) hk halign v

end Sys2Proof
end

section
/-!
The issue protocol of a CMD write (60_exceptions.md R183, R184, R190, R191) and the interrupt output (R195). The three checks of the issue
are each the test of the rule, for every word; the outcome of the write then follows from the first check that fails.
-/

namespace Sys2Proof

open Machine Claims

/-! ### The checks of the issue -/

theorem isLegal_eq_false_iff (w : Word) : isLegal w = false ↔ ∃ v, decodeCmd32 w = .illegalCmd v := by
  unfold isLegal
  split <;> simp_all

theorem isLegal_of_legalBits {w : Word} (h : LegalBits w) : isLegal w = true := by
  rw [← Bool.not_eq_false, isLegal_eq_false_iff]
  rintro ⟨v, hv⟩
  exact ((decodeCmd32_eq_illegalCmd_iff w v).1 hv).1 ((legalBits_iff_mem_legalWords w).1 h)

/-- The OP field as a number (30_encoding.md R76). -/
theorem opField_eq_iff (w : Word) {op : BitVec 4} : opField w = op ↔ w.toNat % 16 = op.toNat := by
  rw [opField, ← BitVec.toNat_inj, BitVec.extractLsb'_toNat, Nat.shiftRight_zero]

/-- The range check of the model is the rule's, on the opcodes that have one. -/
theorem rangeOk_iff_rangePasses (w : Word) (s : State) : rangeOk w s = true ↔ RangePasses w s := by
  have hecc : eccRangeOk (zaField w) (viewField w) s.argOff.toNat = true ↔
      EccInRange (base (w.getLsbD 5)) (w.getLsbD 4) s.argOff.toNat := eccInRange_iff_eccRangeOk.symm
  simp only [rangeOk, RangePasses, beq_iff_eq, opField_eq_iff, ← hecc, BitVec.toNat_ofNat]
  split_ifs with hblock hcompare hverify
  · simp [hblock, Config.bufSize]
  · simp [hcompare, Config.bufSize]
  · simp [hverify]
  · simp [hblock, hcompare, hverify]

/-- The precondition of the model is the rule's. -/
theorem precondOk_iff_precondPasses (w : Word) (s : State) : precondOk w s = true ↔ PrecondPasses w s := by
  simp only [precondOk, PrecondPasses, Bool.not_eq_true', ← Bool.not_eq_true, Bool.and_eq_true, beq_iff_eq, opField_eq_iff,
    decide_eq_true_iff, and_assoc]
  rfl

/-! ### The CMD write -/

/-- A legal word that fails its range check is rejected with RANGE, whatever its precondition (60_exceptions.md R184). -/
theorem issue_of_not_rangeOk {w : Word} {s : State} (hlegal : isLegal w = true) (hrange : rangeOk w s = false) :
    issue w s = rejected w 2#4 s := by
  have hissue : issue w s = (s.latchCmd w).reject .range := by simpa [hlegal, hrange] using issue_cases w s
  rw [hissue, reject_latchCmd_eq_rejected, errNumber]

/-- While BUSY a CMD write is a protected write that is ignored. -/
theorem exec_wr32Cmd_of_isBusy (w : Word) {s : State} (h : IsBusy s) : exec (.wr32Cmd w) s = .next (withError 4#4 s) := by
  rw [← protectedWrite_of_isBusy h (issue w)]
  rfl

/-- Settles O23: while BUSY the write is ignored; while IDLE it is the issue of its word, one clause for each check that fails first and
one for none. -/
theorem commandWriteFollowsTheIssueProtocol : Obligations.CommandWriteFollowsTheIssueProtocol := by
  refine fun w s => ⟨rfl, exec_wr32Cmd_of_isBusy w, fun hidle => ?_⟩
  simp only [exec_wr32Cmd_of_idle w hidle, ← rangeOk_iff_rangePasses, ← precondOk_iff_precondPasses, Bool.not_eq_true]
  refine ⟨fun hbits => ?illegal, fun hbits hrange => ?range, fun hbits hrange hpre => ?precond, fun hbits hrange hpre => ?accepted⟩
  case illegal => rw [issue_of_not_legalBits hbits]
  case range => rw [issue_of_not_rangeOk (isLegal_of_legalBits hbits) hrange]
  case precond => rw [issue_of_not_precondOk (isLegal_of_legalBits hbits) hrange hpre]
  case accepted => rw [issue_of_checks (isLegal_of_legalBits hbits) hrange hpre]

/-! ### The interrupt output -/

theorem irq_iff (s : State) :
    s.irq = true ↔ (s.done = true ∧ s.irqEn.getLsbD 0 = true) ∨ (s.errcode ≠ 0#4 ∧ s.irqEn.getLsbD 1 = true) := by
  rw [State.irq, err_eq_decide, Bool.or_eq_true, Bool.and_eq_true, Bool.and_eq_true, decide_eq_true_iff]

/-- Bit 3 of STATUS is its IRQ flag (10_state.md R23). -/
theorem statusWord_getLsbD_irq : ∀ busy done err irq : Bool, (statusWord busy done err irq).getLsbD 3 = irq := by
  decide

/-- Settles O51: the level by its definition, and its place in the word that a STATUS read returns. -/
theorem irqIsALiveLevel : Obligations.IrqIsALiveLevel := by
  refine fun s => ⟨irq_iff s, s.status, exec_rd32Status s, ?_⟩
  rw [status_eq_statusWord, statusWord_getLsbD_irq]

end Sys2Proof
end

section
/-!
The reset (70_reset_and_hazards.md R210) and the hazards of a busy engine (R222). Which step is a reset is read off the fault record and
the head of the steps to come. While BUSY an access is either a protected write or one whose effect the phase does not touch.
-/

namespace Sys2Proof

open Machine Claims

/-! ### The reset -/

/-- A reset leaves its values and the steps still to come, whatever was pending (70_reset_and_hazards.md R210). -/
theorem step_of_reset {s : State} {later : List Event} (hfault : s.fault = none) (hin : s.inputs = .reset :: later) :
    step s = .next { State.reset with inputs := later } :=
  step_of_fetch_rest (by simpa [hfault, hin] using fetch_cases s)

/-- A recorded fault stops every later step (10_state.md R40). -/
theorem step_of_fault {s : State} {k : Nat} (hfault : s.fault = some k) : step s = .fault (.uninitRead k) :=
  step_of_fetch_stopped (by simpa [hfault, eq_comm] using fetch_cases s)

/-- Settles O10: an unfaulted step at a reset is the reset state, whose live views are read off its fields; a faulted one stops. -/
theorem resetEventGivesTheResetValues : Obligations.ResetEventGivesTheResetValues := by
  refine fun s later hin => ⟨fun hfault => ⟨_, step_of_reset hfault hin, rfl, ?status, rfl, Memory.read_nil, rfl⟩,
    fun k => step_of_fault⟩
  case status => exact status_eq_statusWord _

/-! ### Protected writes while BUSY -/

/-- An instruction that is a protected write at a busy state is ignored there with the error BUSY. -/
theorem exec_of_protectedWrite_of_isBusy {i : Instr} {s : State} {f : State → State} (hbusy : IsBusy s)
    (hexec : exec i s = .next (s.protectedWrite f)) : exec i s = .next (withError 4#4 s) := by
  rw [hexec, protectedWrite_of_isBusy hbusy]

/-! ### Accesses that the phase does not touch -/

/-- What the instruction does while IDLE it does in every phase, and leaves the phase as it is (70_reset_and_hazards.md R222). -/
def ActsAsWhileIdle (i : Instr) : Prop :=
  ∀ s t : State, exec i { s with engine := .idle } = .next t → exec i s = .next { t with engine := s.engine }

/-- An instruction with a plain effect acts as while IDLE when its effect neither reads nor writes the phase. -/
theorem actsAsWhileIdle_of_exec_eq_next {i : Instr} {f : State → State} (hexec : ∀ s, exec i s = .next (f s))
    (hphase : ∀ s, { f { s with engine := .idle } with engine := s.engine } = f s) : ActsAsWhileIdle i := by
  intro s t hidle
  obtain rfl : f { s with engine := .idle } = t := by simpa [hexec] using hidle
  rw [hexec, hphase]

/-- A buffer read acts as while IDLE: its bytes and their marks are no part of the phase. -/
theorem actsAsWhileIdle_of_exec_eq_readBuf {i : Instr} {n k : Nat} (hexec : ∀ s, exec i s = readBuf n k s) : ActsAsWhileIdle i := by
  intro s t hidle
  obtain ⟨hwritten, rfl⟩ := readBuf_next.1 ((hexec _).symm.trans hidle)
  exact (hexec s).trans (readBuf_next.2 ⟨hwritten, rfl⟩)

/-! ### STATUS in the two phases -/

theorem statusWord_busy_sub_one : ∀ done err irq : Bool, statusWord true done err irq - 1#32 = statusWord false done err irq := by
  decide

/-- Bit 0 of STATUS is its BUSY flag (10_state.md R23). -/
theorem statusWord_getLsbD_busy : ∀ busy done err irq : Bool, (statusWord busy done err irq).getLsbD 0 = busy := by
  decide

theorem status_of_isBusy {s : State} (h : IsBusy s) : s.status = statusWord true s.done s.err s.irq := by
  rw [status_eq_statusWord, (isBusy_iff s).2 h]

/-- The phase shows in STATUS as its lowest bit alone. -/
theorem status_idle_eq_sub_one {s : State} (h : IsBusy s) : State.status { s with engine := .idle } = s.status - 1#32 := by
  rw [status_of_isBusy h, statusWord_busy_sub_one]
  exact status_eq_statusWord _

/-- Settles O22: each write of the first list is a protected write; each open write, and each read but that of STATUS, has an effect that
neither reads nor writes the phase; STATUS shows the phase as its lowest bit. -/
theorem protectedWritesAreIgnoredWhileBusy : Obligations.ProtectedWritesAreIgnoredWhileBusy := by
  refine fun s hbusy => ⟨fun i hwrite => ?protectedWrites, fun i t hwrite => ?openWrites, fun i hread t => ?reads,
    s.status, exec_rd32Status s, ?idleStatus, ?busyBit⟩
  case protectedWrites =>
    obtain ⟨_, rfl⟩ | ⟨_, rfl⟩ | ⟨_, rfl⟩ | ⟨_, rfl⟩ | ⟨_, rfl⟩ | ⟨_, rfl⟩ | ⟨_, rfl⟩ | ⟨_, rfl⟩ | ⟨_, _, rfl⟩ | ⟨_, _, rfl⟩
      | ⟨_, _, rfl⟩ := hwrite
    all_goals exact exec_of_protectedWrite_of_isBusy hbusy rfl
  case openWrites =>
    obtain ⟨_, rfl⟩ | ⟨_, rfl⟩ | ⟨_, rfl⟩ := hwrite
    all_goals exact actsAsWhileIdle_of_exec_eq_next (fun _ => rfl) (fun _ => rfl) s t
  case reads =>
    obtain hregister | ⟨_, rfl⟩ | ⟨_, rfl⟩ | ⟨_, rfl⟩ | ⟨_, rfl⟩ | ⟨_, rfl⟩ | ⟨_, rfl⟩ := hread
    · fin_cases hregister
      all_goals exact actsAsWhileIdle_of_exec_eq_next (fun _ => rfl) (fun _ => rfl) s t
    iterate 3 exact actsAsWhileIdle_of_exec_eq_next (fun _ => rfl) (fun _ => rfl) s t
    all_goals exact actsAsWhileIdle_of_exec_eq_readBuf (fun _ => rfl) s t
  case idleStatus => rw [exec_rd32Status, status_idle_eq_sub_one hbusy]
  case busyBit => rw [status_of_isBusy hbusy, statusWord_getLsbD_busy]

end Sys2Proof
end

section
/-!
The decoder and the encoder undo each other (30_encoding.md R81, R82, R83). A descriptor is its three fields, and the well-formedness
tests of both catch-all rows are the rules' own; then each row with an offset field is given by its fields, so that a descriptor and the
instruction it stands for determine each other.
-/

namespace Sys2Proof

open Machine Claims

/-! ### The legal words and their instructions -/

theorem legalWord_iff_legalBits (w : Word) : legalWord w = true ↔ LegalBits w := by
  simp only [legalWord, LegalBits, Bool.and_eq_true, Bool.or_eq_true, Bool.not_eq_true', beq_iff_eq, decide_eq_true_iff,
    ← BitVec.testBit_toNat, Nat.testBit_eq_decide_div_mod_eq, ← BitVec.toNat_inj, BitVec.extractLsb'_toNat,
    Nat.shiftRight_eq_div_pow, decide_eq_false_iff_not, BitVec.toNat_ofNat]
  omega

/-- A legal word is the word of its command, and an illegal one carries itself. -/
theorem encode_decodeCmd32 (w : Word) : encode (decodeCmd32 w) = .cmd32 w := by
  unfold decodeCmd32
  split <;> rfl

theorem decodeCmd32_wellFormed (w : Word) : WellFormed (decodeCmd32 w) = true := by
  by_cases hlegal : LegalBits w
  · have hmem := (legalBits_iff_mem_legalWords w).1 hlegal
    simp only [legalWords, List.mem_cons, List.not_mem_nil, or_false] at hmem
    obtain rfl | rfl | rfl | rfl | rfl | rfl | rfl | rfl | rfl | rfl | rfl := hmem <;> rfl
  · rw [(decodeCmd32_eq_illegalCmd_self_iff w).2 hlegal, WellFormed, Bool.not_eq_true', ← Bool.not_eq_true, legalWord_iff_legalBits]
    exact hlegal

/-- Settles O4: a word of the list is met by its own row; the list holds each legal word with what it decodes to. -/
theorem legalCommandWordsAreTheEleven : Obligations.LegalCommandWordsAreTheEleven := by
  intro w
  rw [legalBits_iff_mem_legalWords]
  constructor
  · intro hmem
    simp only [legalWords, List.mem_cons, List.not_mem_nil, or_false] at hmem
    obtain rfl | rfl | rfl | rfl | rfl | rfl | rfl | rfl | rfl | rfl | rfl := hmem <;> simp [decode, decodeCmd32]
  · intro hmem
    have hword := List.mem_map_of_mem (f := Prod.fst) hmem
    exact hword

/-! ### The fields of a descriptor, and the legal ones -/

theorem accDescriptor_fields (d : Descriptor) :
    accDescriptor (d.getLsbD 15) (d.extractLsb' 13 2) (d.extractLsb' 0 13) = d := by
  apply BitVec.eq_of_toNat_eq
  rw [accDescriptor_toNat, BitVec.extractLsb'_toNat, BitVec.extractLsb'_toNat, ← BitVec.testBit_toNat,
    Nat.testBit_eq_decide_div_mod_eq, toNat_decide_eq_one (Nat.mod_lt _ Nat.two_pos)]
  omega

theorem exists_eq_accDescriptor (d : Descriptor) : ∃ wr sz off, d = accDescriptor wr sz off :=
  ⟨_, _, _, (accDescriptor_fields d).symm⟩

theorem alignedIn_iff {lo hi n off : Nat} : alignedIn lo hi n off = true ↔ lo ≤ off ∧ off < hi ∧ off % n = 0 := by
  simp [alignedIn, and_assoc]

/-- The test of the catch-all row is the rule's (20_memory.md R57, 30_encoding.md R80). -/
theorem legalDescriptor_accDescriptor (wr : Bool) (sz : BitVec 2) (off : BitVec 13) :
    legalDescriptor (accDescriptor wr sz off) = true ↔ sz ≠ 3#2 ∧ LegalAccess wr.toNat (2 ^ sz.toNat) off.toNat := by
  rw [legalDescriptor, accDescriptor_getLsbD_write, accDescriptor_extractLsb'_size, accDescriptor_extractLsb'_offset]
  obtain rfl | rfl | rfl | rfl := size_cases sz
  · cases wr <;> simp [legalAccess, LegalAccess, sizeOfSz, alignedIn_iff, or_assoc]
  · cases wr <;> simp [legalAccess, LegalAccess, sizeOfSz, alignedIn_iff, or_assoc]
  · cases wr <;> simp [legalAccess, LegalAccess, sizeOfSz, alignedIn_iff] <;> omega
  · simp [legalAccess, sizeOfSz]

/-- The decoder leaves to its catch-all row exactly the descriptors that are not legal. -/
theorem decodeAcc16_eq_illegalAccess_self_iff (d : Descriptor) (v : Word) :
    decodeAcc16 d v = .illegalAccess d ↔ legalDescriptor d = false := by
  obtain ⟨wr, sz, off, rfl⟩ := exists_eq_accDescriptor d
  rw [← Bool.not_eq_true, legalDescriptor_accDescriptor]
  exact decode_accDescriptor_eq_illegalAccess_iff wr sz off v

/-! ### The rows with an offset field -/

/-- The table read of a size at a window offset (45_host_access.md R259). -/
def tableRow (sz : BitVec 2) (off : BitVec 13) : Instr :=
  if sz = 0#2 then .rd8Table off else if sz = 1#2 then .rd16Table off else .rd32Table off

/-- The buffer access of a direction and a size at a buffer offset (45_host_access.md R260, R261). -/
def bufferRow (wr : Bool) (sz : BitVec 2) (k : BitVec 12) (v : Word) : Instr :=
  if wr then if sz = 0#2 then .wr8Buf k (v.setWidth 8) else if sz = 1#2 then .wr16Buf k (v.setWidth 16) else .wr32Buf k v
  else if sz = 0#2 then .rd8Buf k else if sz = 1#2 then .rd16Buf k else .rd32Buf k

theorem alignedIn_tables_eq_inRegion (sz : BitVec 2) (off : BitVec 13) :
    alignedIn 0x400 0xA00 (2 ^ sz.toNat) off.toNat = inRegion 0x400#13 0xA00#13 sz off := by
  rw [Bool.eq_iff_iff, alignedIn_iff, inRegion_iff]
  rfl

/-- The window offset of a buffer offset (20_memory.md R53). -/
theorem append_eq_ofNat (k : BitVec 12) : 1#1 ++ k = BitVec.ofNat 13 (0x1000 + k.toNat) := by
  apply BitVec.eq_of_toNat_eq
  rw [BitVec.toNat_append, ← Nat.shiftLeft_add_eq_or_of_lt k.isLt, BitVec.toNat_ofNat]
  exact (Nat.mod_eq_of_lt (Nat.add_lt_add_left k.isLt 0x1000)).symm

/-- The buffer starts at a window offset that every size divides. -/
theorem alignedIn_buffer_eq_inRegion (sz : BitVec 2) (k : BitVec 12) :
    alignedIn 0 0x930 (2 ^ sz.toNat) k.toNat = inRegion 0x1000#13 0x1930#13 sz (1#1 ++ k) := by
  have hoff : (1#1 ++ k).toNat = 0x1000 + k.toNat := by
    rw [append_eq_ofNat, BitVec.toNat_ofNat]
    exact Nat.mod_eq_of_lt (Nat.add_lt_add_left k.isLt 0x1000)
  rw [Bool.eq_iff_iff, alignedIn_iff, inRegion_iff, hoff]
  obtain rfl | rfl | rfl | rfl := size_cases sz <;> simp <;> omega

theorem decodeAcc16_table {sz : BitVec 2} {off : BitVec 13} (hsz : sz ≠ 3#2)
    (h : alignedIn 0x400 0xA00 (2 ^ sz.toNat) off.toNat = true) (v : Word) :
    decodeAcc16 (accDescriptor false sz off) v = tableRow sz off :=
  (decode_accDescriptor_above false sz (alignedIn_iff.1 h).1 v).trans
    (decodeWindow_tables hsz ((alignedIn_tables_eq_inRegion sz off).symm.trans h) v)

theorem decodeAcc16_buffer (wr : Bool) {sz : BitVec 2} {k : BitVec 12} (hsz : sz ≠ 3#2)
    (h : alignedIn 0 0x930 (2 ^ sz.toNat) k.toNat = true) (v : Word) :
    decodeAcc16 (bufDescriptor wr sz k) v = bufferRow wr sz k v := by
  have hregion : inRegion 0x1000#13 0x1930#13 sz (BitVec.ofNat 13 (0x1000 + k.toNat)) = true := by
    rw [← append_eq_ofNat, ← alignedIn_buffer_eq_inRegion, h]
  have hwindow := decodeWindow_buffer wr hsz hregion v
  rw [BitVec.ofNat_toNat, BitVec.setWidth_eq] at hwindow
  rw [bufDescriptor, append_eq_ofNat]
  exact (decode_accDescriptor_above wr sz ((inRegion_iff.1 hregion).1.trans' (by decide)) v).trans hwindow

/-- What a descriptor decodes to: its own row, a table read, a buffer access, or the catch-all row. -/
theorem decodeAcc16_cases (d : Descriptor) (v : Word) :
    d ∈ registerDescriptors
      ∨ (∃ sz off, sz ≠ 3#2 ∧ alignedIn 0x400 0xA00 (2 ^ sz.toNat) off.toNat = true ∧ d = accDescriptor false sz off
          ∧ decodeAcc16 d v = tableRow sz off)
      ∨ (∃ wr sz k, sz ≠ 3#2 ∧ alignedIn 0 0x930 (2 ^ sz.toNat) k.toNat = true ∧ d = bufDescriptor wr sz k
          ∧ decodeAcc16 d v = bufferRow wr sz k v)
      ∨ decodeAcc16 d v = .illegalAccess d := by
  obtain ⟨wr, sz, off, rfl⟩ := exists_eq_accDescriptor d
  by_cases hregister : accDescriptor wr sz off ∈ registerDescriptors
  · exact .inl hregister
  by_cases hwindow : sz ≠ 3#2
      ∧ ((wr = false ∧ inRegion 0x400#13 0xA00#13 sz off = true) ∨ inRegion 0x1000#13 0x1930#13 sz off = true)
  · obtain ⟨hsz, ⟨rfl, htable⟩ | hbuffer⟩ := hwindow
    · have h := (alignedIn_tables_eq_inRegion sz off).trans htable
      exact .inr (.inl ⟨sz, off, hsz, h, rfl, decodeAcc16_table hsz h v⟩)
    · have hoff : off = 1#1 ++ off.extractLsb' 0 12 := by
        obtain ⟨hlo, -, -⟩ := inRegion_iff.1 hbuffer
        rw [append_eq_ofNat, BitVec.extractLsb'_toNat]
        bv_omega
      have h := (alignedIn_buffer_eq_inRegion sz (off.extractLsb' 0 12)).trans (hoff ▸ hbuffer)
      have hd : accDescriptor wr sz off = bufDescriptor wr sz (off.extractLsb' 0 12) := congrArg (accDescriptor wr sz) hoff
      exact .inr (.inr (.inl ⟨wr, sz, _, hsz, h, hd, hd ▸ decodeAcc16_buffer wr hsz h v⟩))
  · exact .inr (.inr (.inr ((decodeAcc16_eq_illegalAccess_iff _ v).2
      ⟨hregister, (decodeWindow_eq_illegalAccess_iff wr sz off v).2 hwindow⟩)))

/-! ### Decoding gives well-formed instructions and keeps every bit -/

theorem tableRow_wellFormed {sz : BitVec 2} {off : BitVec 13} (hsz : sz ≠ 3#2)
    (h : alignedIn 0x400 0xA00 (2 ^ sz.toNat) off.toNat = true) : WellFormed (tableRow sz off) = true := by
  obtain rfl | rfl | rfl | rfl := size_cases sz
  iterate 3 exact h
  exact absurd rfl hsz

theorem bufferRow_wellFormed (wr : Bool) {sz : BitVec 2} {k : BitVec 12} (hsz : sz ≠ 3#2)
    (h : alignedIn 0 0x930 (2 ^ sz.toNat) k.toNat = true) (v : Word) : WellFormed (bufferRow wr sz k v) = true := by
  obtain rfl | rfl | rfl | rfl := size_cases sz
  iterate 3 cases wr <;> exact h
  exact absurd rfl hsz

theorem encode_tableRow {sz : BitVec 2} (hsz : sz ≠ 3#2) (off : BitVec 13) :
    encode (tableRow sz off) = .acc16 (accDescriptor false sz off) 0#32 := by
  obtain rfl | rfl | rfl | rfl := size_cases sz
  iterate 3 rfl
  exact absurd rfl hsz

/-- The encoding of a buffer access holds its descriptor; of its data, the lanes of its size. -/
theorem encode_bufferRow (wr : Bool) {sz : BitVec 2} (hsz : sz ≠ 3#2) (k : BitVec 12) (v : Word) :
    ∃ u, encode (bufferRow wr sz k v) = .acc16 (bufDescriptor wr sz k) u := by
  obtain rfl | rfl | rfl | rfl := size_cases sz
  iterate 3 cases wr <;> exact ⟨_, rfl⟩
  exact absurd rfl hsz

/-- A register row takes no operand but its data, and of that every value. -/
theorem decodeAcc16_register {d : Descriptor} (h : d ∈ registerDescriptors) (v : Word) :
    WellFormed (decodeAcc16 d v) = true ∧ ∃ u, encode (decodeAcc16 d v) = .acc16 d u := by
  rw [registerDescriptors_eq] at h
  fin_cases h
  all_goals exact ⟨rfl, _, rfl⟩

theorem decodeAcc16_wellFormed (d : Descriptor) (v : Word) : WellFormed (decodeAcc16 d v) = true := by
  obtain hregister | ⟨sz, off, hsz, h, -, heq⟩ | ⟨wr, sz, k, hsz, h, -, heq⟩ | heq := decodeAcc16_cases d v
  · exact (decodeAcc16_register hregister v).1
  · exact heq ▸ tableRow_wellFormed hsz h
  · exact heq ▸ bufferRow_wellFormed wr hsz h v
  · rw [heq, WellFormed, (decodeAcc16_eq_illegalAccess_self_iff d v).1 heq, Bool.not_false]

theorem encode_decodeAcc16 (d : Descriptor) (v : Word) : ∃ u, encode (decodeAcc16 d v) = .acc16 d u := by
  obtain hregister | ⟨sz, off, hsz, -, rfl, heq⟩ | ⟨wr, sz, k, hsz, -, rfl, heq⟩ | heq := decodeAcc16_cases d v
  · exact (decodeAcc16_register hregister v).2
  · exact ⟨_, heq ▸ encode_tableRow hsz off⟩
  · exact heq ▸ encode_bufferRow wr hsz k v
  · exact ⟨0#32, by rw [heq, encode]⟩

theorem decode_wellFormed (x : Wire) : WellFormed (decode x) = true :=
  match x with
  | .cmd32 w => decodeCmd32_wellFormed w
  | .acc16 d v => decodeAcc16_wellFormed d v

/-- Settles O2: each row of the two formats is well formed, and its encoding is the word or the descriptor that it was decoded from. -/
theorem decodeIsTotalAndKeepsEveryBit : Obligations.DecodeIsTotalAndKeepsEveryBit :=
  ⟨decode_wellFormed, encode_decodeCmd32, encode_decodeAcc16⟩

/-! ### The round trip -/

theorem setWidth_setWidth_word {n : Nat} (v : BitVec n) (hn : n ≤ 32) : (v.setWidth 32).setWidth n = v := by
  rw [BitVec.setWidth_setWidth_of_le _ hn, BitVec.setWidth_eq]

/-- Settles O1: a row without an offset field evaluates; a table read or a buffer access lies in its region by well-formedness; the two
catch-all rows hold what no other row takes. -/
theorem decodeEncodeRoundTrip : Obligations.DecodeEncodeRoundTrip := by
  intro i hwf
  cases i
  case eccVerify za view => exact decodeCmd32_eccVerify za view
  case classify m1 => cases m1 <;> rfl
  case illegalCmd w =>
    refine (decodeCmd32_eq_illegalCmd_self_iff w).2 fun hlegal => ?_
    rw [WellFormed, (legalWord_iff_legalBits w).2 hlegal] at hwf
    cases hwf
  case illegalAccess d => exact (decodeAcc16_eq_illegalAccess_self_iff d 0#32).2 (by simpa [WellFormed] using hwf)
  case rd8Table => exact decodeAcc16_table (sz := 0#2) (by decide) hwf _
  case rd16Table => exact decodeAcc16_table (sz := 1#2) (by decide) hwf _
  case rd32Table => exact decodeAcc16_table (sz := 2#2) (by decide) hwf _
  case rd8Buf => exact decodeAcc16_buffer false (sz := 0#2) (by decide) hwf _
  case rd16Buf => exact decodeAcc16_buffer false (sz := 1#2) (by decide) hwf _
  case rd32Buf => exact decodeAcc16_buffer false (sz := 2#2) (by decide) hwf _
  case wr32Buf => exact decodeAcc16_buffer true (sz := 2#2) (by decide) hwf _
  case wr8Buf k v =>
    exact (decodeAcc16_buffer true (sz := 0#2) (by decide) hwf _).trans
      (congrArg (Instr.wr8Buf k) (setWidth_setWidth_word v (by decide)))
  case wr16Buf k v =>
    exact (decodeAcc16_buffer true (sz := 1#2) (by decide) hwf _).trans
      (congrArg (Instr.wr16Buf k) (setWidth_setWidth_word v (by decide)))
  case wr8EdcData v => exact congrArg Instr.wr8EdcData (setWidth_setWidth_word v (by decide))
  case wr16EdcData v => exact congrArg Instr.wr16EdcData (setWidth_setWidth_word v (by decide))
  all_goals rfl

/-- Settles O6: each word is evaluated. -/
theorem sampleWordsDecode : Obligations.SampleWordsDecode := by
  exact ⟨rfl, rfl, rfl, rfl, rfl, rfl, rfl, rfl, rfl⟩

end Sys2Proof
end

section
/-!
The schedule (20_memory.md R63, 70_reset_and_hazards.md R221): which instruction a step runs and at which state, by the fault record and
the head of the steps to come; what a run makes of a step's outcome; and the runs that follow from the meaning of one access each, the feed
of EDC_DATA and the race of a write with a completion.
-/

namespace Sys2Proof

open Machine Claims

/-! ### Which instruction a step runs -/

section
variable {s : State} (hfault : s.fault = none)
include hfault

theorem step_of_access {d : Descriptor} {v : Word} {later : List Event} (hin : s.inputs = .access d v :: later) :
    step s = exec (decodeAcc16 d v) { s with inputs := later } :=
  step_of_fetch_run (by simpa [hfault, hin] using fetch_cases s)

/-- The step over an access put before the steps to come. -/
theorem step_cons_access (d : Descriptor) (v : Word) (later : List Event) :
    step { s with inputs := .access d v :: later } = exec (decodeAcc16 d v) { s with inputs := later } :=
  step_of_access (s := { s with inputs := .access d v :: later }) hfault rfl

/-- A turn of the engine that the list of steps to come names. -/
theorem fetch_of_engine {later : List Event} (hin : s.inputs = .engine :: later) : fetch s = engineTurn { s with inputs := later } := by
  simpa [hfault, hin] using fetch_cases s

/-- With no step left to come the turn is the engine's (log entry 3). -/
theorem fetch_of_exhausted (hin : s.inputs = []) : fetch s = engineTurn s := by
  simpa [hfault, hin] using fetch_cases s

end

theorem engineTurn_of_idle {s : State} (h : s.engine = .idle) : engineTurn s = .rest s := by
  rw [engineTurn, h]

theorem engineTurn_of_busy {s : State} {p : Pending} (h : s.engine = .busy p) : engineTurn s = .run (decodeCmd32 p.word) s := by
  rw [engineTurn, h]
  rfl

theorem step_of_engine {s : State} {p : Pending} {later : List Event} (hfault : s.fault = none) (hin : s.inputs = .engine :: later)
    (hp : s.engine = .busy p) : step s = exec (decodeCmd32 p.word) { s with inputs := later } :=
  step_of_fetch_run ((fetch_of_engine hfault hin).trans (engineTurn_of_busy hp))

/-- The step over a turn of the engine put before the steps to come. -/
theorem step_cons_engine {s : State} {p : Pending} (hfault : s.fault = none) (hp : s.engine = .busy p) (later : List Event) :
    step { s with inputs := .engine :: later } = exec (decodeCmd32 p.word) { s with inputs := later } :=
  step_of_engine (s := { s with inputs := .engine :: later }) hfault rfl hp

/-- Settles O7: an access runs its own instruction, a turn of the engine the pending one, and a turn of an idle engine rests. -/
theorem stepRunsTheDecodedInstruction : Obligations.StepRunsTheDecodedInstruction := by
  refine fun s hfault => ⟨fun d v later hin => step_of_access hfault hin, fun p later hin hp => ?_, fun p hin hp => ?_,
    fun later hin hidle => ?_, fun hin hidle => ?_⟩
  · exact step_of_engine hfault hin hp
  · exact step_of_fetch_run ((fetch_of_exhausted hfault hin).trans (engineTurn_of_busy hp))
  · exact step_of_fetch_rest ((fetch_of_engine hfault hin).trans (engineTurn_of_idle hidle))
  · exact step_of_fetch_rest ((fetch_of_exhausted hfault hin).trans (engineTurn_of_idle hidle))

theorem idle_or_isBusy (s : State) : s.engine = .idle ∨ IsBusy s := by
  unfold IsBusy
  cases s.engine <;> simp

/-- A step of an unfaulted state: the host's access, the engine's turn with a command pending or without one, or a reset. -/
theorem step_cases {s : State} (hfault : s.fault = none) :
    (∃ d v later, s.inputs = .access d v :: later ∧ step s = exec (decodeAcc16 d v) { s with inputs := later })
      ∨ (∃ p later, s.engine = .busy p ∧ step s = exec (decodeCmd32 p.word) { s with inputs := later })
      ∨ (∃ later, s.engine = .idle ∧ step s = .next { s with inputs := later })
      ∨ (∃ later, s.inputs = .reset :: later ∧ step s = .next { State.reset with inputs := later }) := by
  obtain ⟨haccess, hengine, hexhausted, hidleEngine, hidleExhausted⟩ := stepRunsTheDecodedInstruction s hfault
  have hnone : s.inputs = [] → { s with inputs := [] } = s := fun hin => by rw [← hin]
  obtain hidle | ⟨p, hp⟩ := idle_or_isBusy s
  · match hin : s.inputs with
    | .access d v :: later => exact .inl ⟨d, v, later, rfl, haccess d v later hin⟩
    | .reset :: later => exact .inr (.inr (.inr ⟨later, rfl, step_of_reset hfault hin⟩))
    | .engine :: later => exact .inr (.inr (.inl ⟨later, hidle, hidleEngine later hin hidle⟩))
    | [] => exact .inr (.inr (.inl ⟨[], hidle, by rw [hnone hin, hidleExhausted hin hidle]⟩))
  · match hin : s.inputs with
    | .access d v :: later => exact .inl ⟨d, v, later, rfl, haccess d v later hin⟩
    | .reset :: later => exact .inr (.inr (.inr ⟨later, rfl, step_of_reset hfault hin⟩))
    | .engine :: later => exact .inr (.inl ⟨p, later, hp, hengine p later hin hp⟩)
    | [] => exact .inr (.inl ⟨p, [], hp, by rw [hnone hin, hexhausted p hin hp]; rfl⟩)

/-! ### The placed instruction -/

/-- While IDLE a command does what the host's write of its word does (log entry 1). -/
theorem exec_decodeCmd32_of_idle {s : State} (h : s.engine = .idle) (w : Word) : exec (decodeCmd32 w) s = .next (issue w s) := by
  unfold decodeCmd32
  split
  all_goals exact commandStep_of_idle h _ _

/-- Settles O9: both are the issue of the word. -/
theorem commandWriteIsItsCommand : Obligations.CommandWriteIsItsCommand := by
  intro w s hidle
  rw [exec_wr32Cmd_of_idle w hidle, decode, exec_decodeCmd32_of_idle hidle]

/-- Settles O8: the placed access or turn heads the steps to come, and taking it off gives back the state. -/
theorem withFetchWordIsRunNext : Obligations.WithFetchWordIsRunNext := by
  refine fun s w hfault => ⟨?access, fun hidle => ?issue, fun p hp => ?completion⟩
  case access =>
    exact step_cons_access hfault (BitVec.ofNat 16 w) 0#32 s.inputs
  case issue =>
    have hplaced : s.withFetchWord 32 w = { s with inputs := .access cmdWriteDescriptor (BitVec.ofNat 32 w) :: s.inputs } := by
      simp [State.withFetchWord, placeTableWord, tableWire, placeWire, hidle]
    rw [hplaced, step_cons_access hfault]
    exact commandWriteIsItsCommand _ s hidle
  case completion =>
    have hplaced : s.withFetchWord 32 w
        = { s with engine := .busy { p with word := BitVec.ofNat 32 w }, inputs := .engine :: s.inputs } := by
      simp [State.withFetchWord, placeTableWord, tableWire, placeWire, hp]
    rw [hplaced]
    exact step_cons_engine (s := { s with engine := .busy { p with word := BitVec.ofNat 32 w } }) hfault rfl s.inputs

/-! ### What a run makes of a step -/

theorem advance_of_next {s t : State} (h : step s = .next t) : advance s = t := by
  rw [advance, h]

theorem advance_of_fault {s : State} {k : Nat} (h : step s = .fault (.uninitRead k)) : advance s = s.recordFault k := by
  rw [advance, h]

theorem advanceN_succ (n : Nat) (s : State) : advanceN (n + 1) s = advanceN n (advance s) := rfl

/-- A run with a recorded fault rests. -/
theorem advance_of_recorded {s : State} {k : Nat} (hfault : s.fault = some k) : advance s = s := by
  rw [advance_of_fault (step_of_fault hfault), State.recordFault, ← hfault]

theorem advanceN_of_recorded {s : State} {k : Nat} (hfault : s.fault = some k) (n : Nat) : advanceN n s = s := by
  induction n with
  | zero => rfl
  | succ n ih => rw [advanceN_succ, advance_of_recorded hfault, ih]

/-- Settles O11: a recorded fault stops the step and the run alike, and a step that faults records its fault. -/
theorem faultedRunTakesNoStep : Obligations.FaultedRunTakesNoStep := by
  refine fun s k => ⟨fun hfault => ⟨step_of_fault hfault, advance_of_recorded hfault⟩, fun hstep => ⟨advance_of_fault hstep, ?_⟩⟩
  rw [advance_of_fault hstep]
  exact advanceN_of_recorded (State.recordFault_fault k s)

/-- A run over one access of an unfaulted state, when its instruction ends in a next state. -/
theorem advance_of_access {s t : State} {d : Descriptor} {v : Word} {later : List Event} (hfault : s.fault = none)
    (hin : s.inputs = .access d v :: later) (hexec : exec (decodeAcc16 d v) { s with inputs := later } = .next t) :
    advance s = t :=
  advance_of_next ((step_of_access hfault hin).trans hexec)

/-- A run over a turn of the engine that completes the pending command. -/
theorem advance_of_engine {s t : State} {p : Pending} {later : List Event} (hfault : s.fault = none)
    (hin : s.inputs = .engine :: later) (hp : s.engine = .busy p)
    (hexec : exec (decodeCmd32 p.word) { s with inputs := later } = .next t) : advance s = t :=
  advance_of_next ((step_of_engine hfault hin hp).trans hexec)

/-! ### Feeding EDC_DATA -/

theorem edcUpdate_append (acc : Word) (x y : List Byte) : edcUpdate acc (x ++ y) = edcUpdate (edcUpdate acc x) y := by
  induction x generalizing acc with
  | nil => rfl
  | cons b x ih => exact ih (edcStep acc b)

/-- Settles O33: the steps over the first list, then those over the second. -/
theorem edcUpdateChains : Obligations.EdcUpdateChains :=
  fun a x y => (edcUpdate_append a x y).symm

/-- One EDC_DATA write of a feed folds its bytes and changes nothing else. -/
theorem advance_of_feed {s : State} {f : Feed} {later : List Event} (hfault : s.fault = none) (hidle : s.engine = .idle)
    (hin : s.inputs = f.event :: later) :
    advance s = { s with edcAcc := edcUpdate s.edcAcc f.bytes, inputs := later } := by
  obtain ⟨hport, -, hdecode⟩ := edcDataWriteFoldsItsBytes
  obtain ⟨hone, htwo, hfour⟩ := hport { s with inputs := later } hidle
  cases f with
  | one v =>
    refine advance_of_access hfault hin ?_
    have hrow : decodeAcc16 0x8018#16 (v.setWidth 32) = .wr8EdcData v := decodeEncodeRoundTrip (.wr8EdcData v) rfl
    rw [hrow, hone]; rfl
  | two v =>
    refine advance_of_access hfault hin ?_
    have hrow : decodeAcc16 0xA018#16 (v.setWidth 32) = .wr16EdcData v := decodeEncodeRoundTrip (.wr16EdcData v) rfl
    rw [hrow, htwo]; rfl
  | four v => exact advance_of_access hfault hin (hfour v)

/-- Settles O41, by induction on the feed: each write folds its bytes, and the updates chain. -/
theorem feedingEdcDataChecksumsTheInput : Obligations.FeedingEdcDataChecksumsTheInput := by
  intro feeds later
  induction feeds with
  | nil =>
    intro s _ _ hin
    have hlater : s.inputs = later := hin
    rw [← hlater]
    rfl
  | cons f feeds ih =>
    intro s hfault hidle hin
    rw [List.length_cons, advanceN_succ, advance_of_feed hfault hidle hin, List.flatMap_cons, edcUpdate_append]
    exact ih _ hfault hidle rfl

/-! ### The race of a write with a completion -/

theorem exec_wr32EdcAcc_of_idle {s : State} (h : s.engine = .idle) (v : Word) :
    exec (.wr32EdcAcc v) s = .next { s with edcAcc := v } := by
  rw [exec_wr32EdcAcc, protectedWrite_of_idle h]

/-- Settles O50: the three steps of each order, by the meaning of each. -/
theorem busyRaceHasBothOutcomes : Obligations.BusyRaceHasBothOutcomes := by
  intro s v hfault hidle herr
  obtain ⟨-, hnop⟩ := nopOnlyCompletes
  have hissue : ∀ later, advance { s with inputs := .access 0xC004#16 0#32 :: later } = accepted 0#32 { s with inputs := later } :=
    fun later => advance_of_access hfault rfl
      ((commandWriteIsItsCommand 0#32 { s with inputs := later } hidle).trans ((hnop _).1 hidle))
  constructor
  · have hturn : advance (accepted 0#32 { s with inputs := [.engine, .access 0xC014#16 v] })
        = completed 0#32 (accepted 0#32 { s with inputs := [.access 0xC014#16 v] }) :=
      advance_of_engine hfault rfl rfl ((hnop _).2 ⟨_, rfl⟩)
    have hwrite : advance (completed 0#32 (accepted 0#32 { s with inputs := [.access 0xC014#16 v] }))
        = { completed 0#32 (accepted 0#32 { s with inputs := [] }) with edcAcc := v } :=
      advance_of_access hfault rfl (exec_wr32EdcAcc_of_idle rfl v)
    rw [advanceN_succ, hissue, advanceN_succ, hturn, advanceN_succ, hwrite]
    simp [advanceN, completed, accepted, hidle]
  · have hwrite : advance (accepted 0#32 { s with inputs := [.access 0xC014#16 v, .engine] })
        = withError 4#4 (accepted 0#32 { s with inputs := [.engine] }) :=
      advance_of_access hfault rfl (exec_of_protectedWrite_of_isBusy ⟨_, rfl⟩ (exec_wr32EdcAcc v _))
    have hturn : advance (withError 4#4 (accepted 0#32 { s with inputs := [.engine] }))
        = completed 0#32 (withError 4#4 (accepted 0#32 { s with inputs := [] })) :=
      advance_of_engine hfault rfl rfl ((hnop _).2 ⟨_, rfl⟩)
    rw [advanceN_succ, hissue, advanceN_succ, hwrite, advanceN_succ, hturn]
    simp [advanceN, completed, withError, accepted, hidle, herr]

end Sys2Proof
end

section
/-!
What an instruction can do to the state, said once: `exec_effect` gives the effect of every instruction that ends in a next state. The frames
of the whole machine are read off it: which instructions change the buffer and EDC_ACC, what an error leaves alone, what a host access leaves
alone while BUSY, and the invariant that every step keeps.
-/

namespace Sys2Proof

open Machine Claims

/-! ### The kinds of instructions -/

/-- The seven commands that can be pending (30_encoding.md R82). -/
def isCommand (i : Instr) : Bool :=
  match i with
  | .nop | .edcBlock | .edcCompare | .eccVerify _ _ | .syncDetect | .subhdrCheck | .classify _ => true
  | _ => false

/-- The writes of the sector buffer (45_host_access.md R261). -/
def isBufferWrite (i : Instr) : Bool :=
  match i with
  | .wr8Buf _ _ | .wr16Buf _ _ | .wr32Buf _ _ => true
  | _ => false

/-- The host's writes of EDC_ACC and of the EDC_DATA port (45_host_access.md R254, 41_edc.md R113). -/
def isAccumulatorWrite (i : Instr) : Bool :=
  match i with
  | .wr32EdcAcc _ | .wr8EdcData _ | .wr16EdcData _ | .wr32EdcData _ => true
  | _ => false

/-- The legal words are those of the seven commands. -/
theorem isCommand_decodeCmd32 (w : Word) : isCommand (decodeCmd32 w) = isLegal w := by
  unfold isLegal decodeCmd32
  split <;> rfl

/-- No access is a command: the two formats share no row (30_encoding.md R75). -/
theorem isCommand_decodeAcc16 (d : Descriptor) (v : Word) : isCommand (decodeAcc16 d v) = false := by
  obtain hregister | ⟨sz, off, -, -, -, heq⟩ | ⟨wr, sz, k, -, -, -, heq⟩ | heq := decodeAcc16_cases d v
  · rw [registerDescriptors_eq] at hregister
    fin_cases hregister
    all_goals rfl
  · rw [heq, tableRow]
    split_ifs <;> rfl
  · rw [heq, bufferRow]
    split_ifs <;> rfl
  · rw [heq]
    rfl

/-! ### The effect of an instruction -/

/-- The next states that instruction `i` can give from state `s`. -/
inductive Effect (i : Instr) (s : State) : State → Prop where
  /-- A read returns its value. -/
  | answers (hi : isCommand i = false) (v : Word) : Effect i s (s.answer v)
  /-- A write is ignored or illegal. -/
  | raises (hi : isCommand i = false) (c : ErrCode) : Effect i s (s.raise c)
  /-- An illegal read returns 0. -/
  | raisesAndAnswers (hi : isCommand i = false) (c : ErrCode) (v : Word) : Effect i s ((s.raise c).answer v)
  /-- A STATUS write. -/
  | clearsDone (hi : isCommand i = false) (b : Bool) : Effect i s { s with done := s.done && b }
  /-- An ERRCODE write. -/
  | clearsError (hi : isCommand i = false) : Effect i s { s with errcode := 0#4 }
  /-- An IRQ_EN write. -/
  | enables (hi : isCommand i = false) (e : BitVec 2) : Effect i s { s with irqEn := e }
  /-- A write of ARG_OFF, ARG_LEN or AVAIL. -/
  | storesOperands (hidle : s.engine = .idle) (off len avail : Word) :
      Effect i s { s with argOff := off, argLen := len, avail := avail }
  /-- A write of EDC_ACC or EDC_DATA. -/
  | storesAccumulator (hi : isAccumulatorWrite i = true) (hidle : s.engine = .idle) (acc : Word) : Effect i s { s with edcAcc := acc }
  /-- A buffer write, inside the buffer when the instruction is well formed. -/
  | storesBytes (hi : isBufferWrite i = true) (hidle : s.engine = .idle) (k : Nat) (bs : List Byte)
      (hfits : WellFormed i = true → k + bs.length ≤ 2352) : Effect i s { s with buf := s.buf.writeBytes k bs }
  /-- A CMD write, or a command while IDLE. -/
  | issues (hidle : s.engine = .idle) (w : Word) : Effect i s (issue w s)
  /-- The completion of a command. -/
  | completes (hi : isCommand i = true) (hbusy : IsBusy s) (r : ResultBits) : Effect i s (s.complete r)
  /-- The completion of EDC_BLOCK. -/
  | completesEdcBlock (hi : i = .edcBlock) (hbusy : IsBusy s) (acc : Word) : Effect i s (State.complete {} { s with edcAcc := acc })

section
variable {i : Instr} {s t : State}

theorem effect_of_commandStep {w : Word} {run : Pending → Out} (h : commandStep w run s = .next t)
    (hrun : ∀ p, IsBusy s → run p = .next t → Effect i s t) : Effect i s t := by
  obtain ⟨hidle, heq⟩ | ⟨p, hp, heq⟩ := commandStep_cases w run s
  · obtain rfl := Host.Outcome.next.inj (heq.symm.trans h)
    exact .issues hidle w
  · exact hrun p ⟨p, hp⟩ (heq.symm.trans h)

theorem effect_of_completion (hi : isCommand i = true) {w : Word} {offsets : Pending → List Nat} {r : Pending → ResultBits}
    (h : commandStep w (fun p => completeIfWritten (offsets p) (s.complete (r p)) s) s = .next t) : Effect i s t := by
  refine effect_of_commandStep h fun p hbusy hrun => ?_
  obtain ⟨-, rfl⟩ := completeIfWritten_next.1 hrun
  exact .completes hi hbusy (r p)

theorem effect_of_protectedWrite (hi : isCommand i = false) {f : State → State} (hf : s.engine = .idle → Effect i s (f s)) :
    Effect i s (s.protectedWrite f) := by
  obtain ⟨hidle, heq⟩ | ⟨p, -, heq⟩ := s.protectedWrite_cases f
  · rw [heq]
    exact hf hidle
  · rw [heq]
    exact .raises hi .busy

theorem effect_of_readBuf (hi : isCommand i = false) {n k : Nat} (h : readBuf n k s = .next t) : Effect i s t := by
  obtain ⟨-, rfl⟩ := readBuf_next.1 h
  exact .answers hi _

theorem effect_of_writeBuf (hi : isBufferWrite i = true) (hi' : isCommand i = false) {n k : Nat}
    (hfits : WellFormed i = true → k + n ≤ 2352) (v : Word) : Effect i s (writeBuf n k v s) :=
  effect_of_protectedWrite hi' fun hidle => .storesBytes hi hidle k _ (by simpa [laneBytes] using hfits)

end

/-- An aligned access inside the buffer ends inside the buffer. -/
theorem add_le_of_alignedIn {n k : Nat} (hn : 2352 % n = 0) (h : alignedIn 0 0x930 n k = true) : k + n ≤ 2352 := by
  obtain ⟨-, hlt, halign⟩ := alignedIn_iff.1 h
  obtain ⟨a, rfl⟩ := Nat.dvd_of_mod_eq_zero halign
  obtain ⟨b, hb⟩ := Nat.dvd_of_mod_eq_zero hn
  rw [hb] at hlt ⊢
  have hab : a + 1 ≤ b := Nat.lt_of_mul_lt_mul_left hlt
  calc n * a + n = n * (a + 1) := (Nat.mul_succ n a).symm
    _ ≤ n * b := Nat.mul_le_mul_left n hab

/-- What every instruction does, where it ends in a next state. -/
theorem exec_effect {i : Instr} {s t : State} (h : exec i s = .next t) : Effect i s t := by
  cases i
  case nop =>
    refine effect_of_commandStep h fun p hbusy hrun => ?_
    obtain rfl := Host.Outcome.next.inj hrun
    exact .completes rfl hbusy {}
  case edcBlock =>
    refine effect_of_commandStep h fun p hbusy hrun => ?_
    obtain ⟨-, rfl⟩ := completeIfWritten_next.1 hrun
    exact .completesEdcBlock rfl hbusy _
  case edcCompare | eccVerify | syncDetect | subhdrCheck | classify => exact effect_of_completion rfl h
  case illegalCmd =>
    refine effect_of_commandStep h fun p hbusy hrun => ?_
    obtain rfl := Host.Outcome.next.inj hrun
    exact .raises rfl .busy
  case rd8Buf | rd16Buf | rd32Buf => exact effect_of_readBuf rfl h
  case illegalAccess d =>
    obtain rfl := Host.Outcome.next.inj h
    split
    · exact .raises rfl .access
    · exact .raisesAndAnswers rfl .access 0#32
  all_goals obtain rfl := Host.Outcome.next.inj h
  case wr32Cmd v => exact effect_of_protectedWrite rfl fun hidle => .issues hidle v
  case wr32Status v => exact .clearsDone rfl (!v.getLsbD 1)
  case wr32Errcode => exact .clearsError rfl
  case wr32IrqEn v => exact .enables rfl (v.setWidth 2)
  case wr32EdcAcc | wr8EdcData | wr16EdcData | wr32EdcData =>
    exact effect_of_protectedWrite rfl fun hidle => .storesAccumulator rfl hidle _
  case wr32ArgOff v => exact effect_of_protectedWrite rfl fun hidle => .storesOperands hidle v s.argLen s.avail
  case wr32ArgLen v => exact effect_of_protectedWrite rfl fun hidle => .storesOperands hidle s.argOff v s.avail
  case wr32Avail v => exact effect_of_protectedWrite rfl fun hidle => .storesOperands hidle s.argOff s.argLen v
  case wr8Buf | wr16Buf | wr32Buf =>
    refine effect_of_writeBuf rfl rfl ?_ _
    exact fun hwf => add_le_of_alignedIn (by decide) hwf
  all_goals exact .answers rfl _

/-! ### What every effect leaves unchanged -/

/-- An issue writes CMD, DONE, ERRCODE, RESULT and the phase (60_exceptions.md R190, R191). -/
theorem issue_frame (w : Word) (s : State) :
    ∃ d e r g, issue w s = { s with cmd := w, done := d, errcode := e, result := r, engine := g } := by
  obtain ⟨-, heq⟩ | ⟨-, -, heq⟩ | ⟨-, -, -, heq⟩ | ⟨-, -, -, heq⟩ := issue_cases w s
  all_goals exact ⟨_, _, _, _, heq⟩

section
variable {i : Instr} {s t : State}

theorem Effect.fault_eq (h : Effect i s t) : t.fault = s.fault := by
  cases h
  case issues _ w => obtain ⟨_, _, _, _, heq⟩ := issue_frame w s; rw [heq]
  all_goals rfl

theorem Effect.inputs_eq (h : Effect i s t) : t.inputs = s.inputs := by
  cases h
  case issues _ w => obtain ⟨_, _, _, _, heq⟩ := issue_frame w s; rw [heq]
  all_goals rfl

theorem Effect.buf_eq (h : Effect i s t) (hi : isBufferWrite i = false) : t.buf = s.buf := by
  cases h
  case storesBytes hwrite _ _ _ _ => simp [hi] at hwrite
  case issues _ w => obtain ⟨_, _, _, _, heq⟩ := issue_frame w s; rw [heq]
  all_goals rfl

theorem Effect.edcAcc_eq (h : Effect i s t) (hi : isAccumulatorWrite i = false) (hblock : i ≠ .edcBlock) : t.edcAcc = s.edcAcc := by
  cases h
  case storesAccumulator hwrite _ _ => simp [hi] at hwrite
  case completesEdcBlock heq _ _ => exact absurd heq hblock
  case issues _ w => obtain ⟨_, _, _, _, heq⟩ := issue_frame w s; rw [heq]
  all_goals rfl

end

/-- Settles O45: no other instruction has an effect on the buffer, or on EDC_ACC. -/
theorem onlyWritesChangeBufferAndAccumulator : Obligations.OnlyWritesChangeBufferAndAccumulator := by
  intro i s t h
  constructor
  · intro h8 h16 h32
    refine (exec_effect h).buf_eq ?_
    cases i <;> simp_all [isBufferWrite]
  · intro h32 hport8 hport16 hport32 hblock
    refine (exec_effect h).edcAcc_eq ?_ hblock
    cases i <;> simp_all [isAccumulatorWrite]

/-! ### Errors -/

/-- Settles O46: of the steps that are no ERRCODE write and no reset, each keeps the error that it finds. -/
theorem recordedErrorIsSticky : Obligations.RecordedErrorIsSticky :=
  fun _ t hstep herr hwrite hreset => step_leavesErrcode herr hwrite hreset t hstep

/-- Settles O47: an effect that changes ERRCODE to a code records one of its own, and a rejection beside it writes CMD, RESULT and DONE. -/
theorem errorsArePrecise : Obligations.ErrorsArePrecise := by
  intro i s t h hne hcode
  cases exec_effect h
  case raises | raisesAndAnswers => rfl
  case clearsError => exact absurd rfl hcode
  case issues _ w =>
    obtain ⟨-, heq⟩ | ⟨-, -, heq⟩ | ⟨-, -, -, heq⟩ | ⟨-, -, -, heq⟩ := issue_cases w s
    iterate 3
      rw [heq]
      rfl
    rw [heq] at hne
    exact absurd rfl hne
  all_goals exact absurd rfl hne

/-! ### The pending command -/

/-- While BUSY the effect of a host access leaves alone all that the pending command rests on (10_state.md R34). -/
theorem Effect.frozen_of_isBusy {i : Instr} {s t : State} (h : Effect i s t) (hi : isCommand i = false) (hbusy : IsBusy s) :
    t.engine = s.engine ∧ t.cmd = s.cmd ∧ t.argOff = s.argOff ∧ t.argLen = s.argLen ∧ t.avail = s.avail
      ∧ t.edcAcc = s.edcAcc ∧ t.result = s.result ∧ t.buf = s.buf := by
  obtain ⟨p, hp⟩ := hbusy
  cases h
  case storesOperands hidle _ _ _ | storesAccumulator hidle _ | storesBytes hidle _ _ _ | issues hidle _ => simp [hp] at hidle
  case completes hcommand _ _ => simp [hi] at hcommand
  case completesEdcBlock heq _ _ => simp [heq, isCommand] at hi
  all_goals exact ⟨rfl, rfl, rfl, rfl, rfl, rfl, rfl, rfl⟩

/-- A turn of the engine leaves it idle, when the pending word is legal. -/
theorem Effect.engine_of_isBusy {i : Instr} {s t : State} (h : Effect i s t) (hi : isCommand i = true) (hbusy : IsBusy s) :
    t.engine = .idle := by
  obtain ⟨p, hp⟩ := hbusy
  cases h
  case completes | completesEdcBlock => rfl
  case storesOperands hidle _ _ _ | storesAccumulator hidle _ | storesBytes hidle _ _ _ | issues hidle _ => simp [hp] at hidle
  all_goals simp_all

/-- A step that ends in a next state found no fault recorded. -/
theorem fault_eq_none_of_step_next {s t : State} (h : step s = .next t) : s.fault = none := by
  cases hfault : s.fault with
  | none => rfl
  | some k => simp [step_of_fault hfault] at h

/-- Settles O48: the access is no command, so its effect while BUSY is one of those that leave the pending command alone. -/
theorem pendingCommandIsFrozen : Obligations.PendingCommandIsFrozen := by
  intro s t p d v later hp hin hstep
  have hexec := (step_of_access (fault_eq_none_of_step_next hstep) hin).symm.trans hstep
  obtain ⟨hengine, hrest⟩ := (exec_effect hexec).frozen_of_isBusy (isCommand_decodeAcc16 d v) ⟨p, hp⟩
  exact ⟨hengine.trans hp, hrest⟩

/-! ### The invariant -/

theorem toNat_or_lt {x y : Word} (hx : x.toNat < 2048) (hy : y.toNat < 2048) : (x ||| y).toNat < 2048 := by
  rw [BitVec.toNat_or]
  exact Nat.or_lt_two_pow (n := 11) hx hy

theorem toNat_bitWord_shiftLeft_lt (b : Bool) {n : Nat} (hn : n ≤ 10) : (bitWord b <<< n).toNat < 2048 := by
  interval_cases n <;> cases b <;> decide

/-- RESULT[31:11] is 0 after every command (10_state.md R25). -/
theorem toNat_packResult_lt (r : ResultBits) : (packResult r).toNat < 2048 := by
  have hmatched : (bitWord r.matched).toNat < 2048 := by cases r.matched <;> decide
  have hcls : (r.cls.setWidth 32 <<< 1 : Word).toNat < 2048 := by generalize r.cls = c; revert c; decide
  unfold packResult
  refine toNat_or_lt (toNat_or_lt (toNat_or_lt (toNat_or_lt (toNat_or_lt (toNat_or_lt (toNat_or_lt (toNat_or_lt
    (toNat_or_lt hmatched hcls) ?_) ?_) ?_) ?_) ?_) ?_) ?_) ?_
  all_goals exact toNat_bitWord_shiftLeft_lt _ (by decide)

theorem errNumber_le (c : ErrCode) : (errNumber c).toNat ≤ 5 := by
  cases c <;> decide

theorem raise_errcode_le {s : State} (h : s.errcode.toNat ≤ 5) (c : ErrCode) : (s.raise c).errcode.toNat ≤ 5 := by
  rw [State.raise_errcode]
  split
  · exact errNumber_le c
  · exact h

/-- While IDLE the invariant is about the buffer, ERRCODE and RESULT alone. -/
theorem inv_of_idle {s : State} (hidle : s.engine = .idle) (hbuf : s.buf.wf = true) (herr : s.errcode.toNat ≤ 5)
    (hresult : s.result.toNat < 2048) : Inv s :=
  ⟨hbuf, herr, hresult, by simp [hidle], by simp [hidle], by simp [hidle]⟩

/-- Settles O43: the reset state is idle, its buffer empty. -/
theorem resetMeetsTheInvariant : Obligations.ResetMeetsTheInvariant :=
  inv_of_idle rfl reset_buf_wf (by decide) (by decide)

section
variable {s : State} (h : Inv s)
include h

/-- The invariant names no flag but ERRCODE and, while BUSY, DONE, and none of the model's own fields. -/
theorem inv_withFlags {e : BitVec 4} (he : e.toNat ≤ 5) {d : Bool} (hd : s.done = false → d = false) (q : BitVec 2) (r : Option Word)
    (l : List Event) : Inv { s with errcode := e, done := d, irqEn := q, rdata := r, inputs := l } :=
  ⟨h.bufCanonical, he, h.resultReserved, h.pendingFrozen, h.pendingAccepted, fun p hp => hd (h.doneClearWhileBusy p hp)⟩

theorem inv_withInputs (l : List Event) : Inv { s with inputs := l } :=
  inv_withFlags h h.errcodeProduced id s.irqEn s.rdata l

/-- A rejection leaves the engine idle; an acceptance latches the live registers after the checks have passed. -/
theorem inv_issue (hidle : s.engine = .idle) (w : Word) : Inv (issue w s) := by
  have hreject : ∀ c, Inv ((s.latchCmd w).reject c) := fun c =>
    inv_of_idle hidle h.bufCanonical (raise_errcode_le h.errcodeProduced c) (by decide : (0#32).toNat < 2048)
  obtain ⟨-, heq⟩ | ⟨-, -, heq⟩ | ⟨-, -, -, heq⟩ | ⟨hlegal, hrange, hpre, heq⟩ := issue_cases w s
  iterate 3 exact heq ▸ hreject _
  rw [heq]
  refine ⟨h.bufCanonical, h.errcodeProduced, h.resultReserved, ?_, ?_, fun _ _ => rfl⟩
  · rintro _ ⟨⟩
    rfl
  · rintro _ ⟨⟩
    exact ⟨hlegal, hrange, hpre⟩

/-- A completion leaves the engine idle and RESULT written whole. -/
theorem inv_complete (r : ResultBits) (acc : Word) : Inv (State.complete r { s with edcAcc := acc }) :=
  inv_of_idle rfl h.bufCanonical h.errcodeProduced (toNat_packResult_lt r)

/-- Every effect of a well-formed instruction keeps the invariant. -/
theorem Effect.keeps_inv {i : Instr} {t : State} (heffect : Effect i s t) (hwf : WellFormed i = true) : Inv t := by
  cases heffect
  case answers v => exact inv_withFlags h h.errcodeProduced id s.irqEn (some v) s.inputs
  case raises c => exact inv_withFlags h (raise_errcode_le h.errcodeProduced c) id s.irqEn s.rdata s.inputs
  case raisesAndAnswers c v => exact inv_withFlags h (raise_errcode_le h.errcodeProduced c) id s.irqEn (some v) s.inputs
  case clearsDone b => exact inv_withFlags h h.errcodeProduced (fun hd => by rw [hd, Bool.false_and]) s.irqEn s.rdata s.inputs
  case clearsError => exact inv_withFlags h (by decide) id s.irqEn s.rdata s.inputs
  case enables e => exact inv_withFlags h h.errcodeProduced id e s.rdata s.inputs
  case storesOperands hidle _ _ _ => exact inv_of_idle hidle h.bufCanonical h.errcodeProduced h.resultReserved
  case storesAccumulator hidle _ => exact inv_of_idle hidle h.bufCanonical h.errcodeProduced h.resultReserved
  case storesBytes hidle k bs hfits =>
    exact inv_of_idle hidle (Memory.wf_writeBytes s.buf k bs (hfits hwf) h.bufCanonical) h.errcodeProduced h.resultReserved
  case issues hidle w => exact inv_issue h hidle w
  case completes r => exact inv_complete h r s.edcAcc
  case completesEdcBlock acc => exact inv_complete h {} acc

end

/-- Settles O42: an access or a turn of the engine runs a well-formed instruction, whose effect keeps the invariant; a turn of an idle
engine takes an entry off the steps to come, and a reset gives the reset state. -/
theorem stepKeepsTheInvariant : Obligations.StepKeepsTheInvariant := by
  intro s t h hstep
  obtain ⟨d, v, later, -, heq⟩ | ⟨p, later, -, heq⟩ | ⟨later, -, heq⟩ | ⟨later, -, heq⟩ :=
    step_cases (fault_eq_none_of_step_next hstep)
  · exact (exec_effect (heq.symm.trans hstep)).keeps_inv (inv_withInputs h later) (decodeAcc16_wellFormed d v)
  · exact (exec_effect (heq.symm.trans hstep)).keeps_inv (inv_withInputs h later) (decodeCmd32_wellFormed p.word)
  · obtain rfl := Host.Outcome.next.inj (heq.symm.trans hstep)
    exact inv_withInputs h later
  · obtain rfl := Host.Outcome.next.inj (heq.symm.trans hstep)
    exact inv_withInputs resetMeetsTheInvariant later

end Sys2Proof
end

section
/-!
Where a step can stop, and that a pending command ends. An outcome stops safely when it refuses nothing and faults at an unwritten byte of the
buffer alone; every well-formed instruction does, where the range check of its issue still holds. A pending command then completes at the
engine's turn, which comes when the steps to come are exhausted at the latest. Last, the two error rows of the formats.
-/

namespace Sys2Proof

open Machine Claims

/-! ### Outcomes that stop at an unwritten byte alone -/

/-- The outcome refuses nothing, and a fault of it is at an offset of the buffer that `m` holds no byte at. -/
def StopsAtUnwritten (m : Memory) (o : Out) : Prop :=
  (∀ k, o = .fault (.uninitRead k) → k < 2352 ∧ m.read k = none) ∧ ∀ r, o ≠ .refused r

theorem stopsAtUnwritten_next (m : Memory) (t : State) : StopsAtUnwritten m (.next t) := by
  simp [StopsAtUnwritten]

/-- The offset that the search finds is one of the list, and unwritten. -/
theorem mem_and_read_of_firstUnwritten {m : Memory} {offsets : List Nat} {k : Nat} (h : m.firstUnwritten offsets = some k) :
    k ∈ offsets ∧ m.read k = none :=
  ⟨List.mem_of_find?_eq_some h, Option.isNone_iff_eq_none.1 (List.find?_some (p := fun k => (m.read k).isNone) h)⟩

section
variable {s : State}

theorem stopsAtUnwritten_completeIfWritten {offsets : List Nat} (hin : ∀ k ∈ offsets, k < 2352) (t : State) :
    StopsAtUnwritten s.buf (completeIfWritten offsets t s) := by
  refine ⟨fun k hfault => ?_, fun r => completeIfWritten_not_refused⟩
  obtain ⟨hmem, hnone⟩ := mem_and_read_of_firstUnwritten (completeIfWritten_fault.1 hfault)
  exact ⟨hin k hmem, hnone⟩

theorem stopsAtUnwritten_readBuf {n k : Nat} (hin : k + n ≤ 2352) : StopsAtUnwritten s.buf (readBuf n k s) := by
  unfold readBuf
  split
  case h_1 j hj =>
    obtain ⟨hmem, hnone⟩ := mem_and_read_of_firstUnwritten hj
    have hlt : j < 2352 := by rw [List.mem_range'_1] at hmem; omega
    refine ⟨?_, fun r h => by cases h⟩
    rintro _ ⟨⟩
    exact ⟨hlt, hnone⟩
  case h_2 => exact stopsAtUnwritten_next _ _

theorem stopsAtUnwritten_commandStep {w : Word} {run : Pending → Out}
    (hrun : ∀ p, s.engine = .busy p → StopsAtUnwritten s.buf (run p)) : StopsAtUnwritten s.buf (commandStep w run s) := by
  obtain ⟨-, heq⟩ | ⟨p, hp, heq⟩ := commandStep_cases w run s
  · exact heq ▸ stopsAtUnwritten_next _ _
  · exact heq ▸ hrun p hp

end

/-! ### The footprints lie inside the buffer -/

/-- The two commands whose footprint rests on the latched operands alone still have it inside the buffer. -/
def ReadsInside (i : Instr) (p : Pending) : Prop :=
  match i with
  | .edcBlock => p.off.toNat + p.len.toNat ≤ 2352
  | .edcCompare => p.off.toNat + 4 ≤ 2352
  | _ => True

theorem readsInside_of_not_command {i : Instr} (hi : isCommand i = false) (p : Pending) : ReadsInside i p := by
  cases i
  case edcBlock | edcCompare => cases hi
  all_goals trivial

/-- The range check of the issue, on the registers that the operands were latched from. -/
theorem readsInside_of_rangeOk {w : Word} {s : State} {p : Pending} (hoff : p.off = s.argOff) (hlen : p.len = s.argLen)
    (h : rangeOk w s = true) : ReadsInside (decodeCmd32 w) p := by
  unfold decodeCmd32
  split
  case h_2 => rw [ReadsInside, hoff, hlen]; exact of_decide_eq_true h
  case h_3 => rw [ReadsInside, hoff]; exact of_decide_eq_true h
  all_goals trivial

theorem readsInside_of_inv {s : State} {p : Pending} (h : Inv s) (hp : s.engine = .busy p) : ReadsInside (decodeCmd32 p.word) p := by
  obtain ⟨-, hrange, -⟩ := h.pendingAccepted p hp
  have hfrozen := h.pendingFrozen p hp
  exact readsInside_of_rangeOk (congrArg Pending.off hfrozen) (congrArg Pending.len hfrozen) hrange

theorem lt_of_mem_eccFootprint {vb : Int} {za : Bool} {dest k : Nat} (h : k ∈ eccFootprint vb za dest) : k < 2352 := by
  rw [eccFootprint, List.mem_filter, List.mem_range] at h
  exact h.1

theorem lt_of_mem_classifyFootprint {avail : Nat} {m1 : Bool} {k : Nat} (h : k ∈ classifyFootprint avail m1) : k < 2352 := by
  obtain hshort | hlong := Nat.lt_or_ge avail 2336
  · rw [classifyFootprint_of_short hshort] at h
    cases h
  · rw [classifyFootprint_of_le hlong, List.mem_range] at h
    split at h <;> omega

/-- A well-formed instruction stops at an unwritten byte alone: the buffer reads by their operand ranges, the commands by their footprints. -/
theorem exec_stopsAtUnwritten {i : Instr} {s : State} (hwf : WellFormed i = true) (hready : ∀ p, s.engine = .busy p → ReadsInside i p) :
    StopsAtUnwritten s.buf (exec i s) := by
  cases i
  case edcBlock =>
    refine stopsAtUnwritten_commandStep fun p hp => stopsAtUnwritten_completeIfWritten (fun k hk => ?_) _
    exact (List.mem_range'_1.1 hk).2.trans_le (hready p hp)
  case edcCompare =>
    refine stopsAtUnwritten_commandStep fun p hp => stopsAtUnwritten_completeIfWritten (fun k hk => ?_) _
    exact (List.mem_range'_1.1 hk).2.trans_le (hready p hp)
  case eccVerify =>
    exact stopsAtUnwritten_commandStep fun p _ => stopsAtUnwritten_completeIfWritten (fun _ => lt_of_mem_eccFootprint) _
  case syncDetect => exact stopsAtUnwritten_commandStep fun p _ => stopsAtUnwritten_completeIfWritten (by decide) _
  case subhdrCheck => exact stopsAtUnwritten_commandStep fun p _ => stopsAtUnwritten_completeIfWritten (by decide) _
  case classify =>
    exact stopsAtUnwritten_commandStep fun p _ => stopsAtUnwritten_completeIfWritten (fun _ => lt_of_mem_classifyFootprint) _
  case nop | illegalCmd => exact stopsAtUnwritten_commandStep fun p _ => stopsAtUnwritten_next _ _
  case rd8Buf | rd16Buf | rd32Buf => exact stopsAtUnwritten_readBuf (add_le_of_alignedIn (by decide) hwf)
  all_goals exact stopsAtUnwritten_next _ _

theorem step_stopsAtUnwritten {s : State} (h : Inv s) (hfault : s.fault = none) : StopsAtUnwritten s.buf (step s) := by
  obtain ⟨d, v, later, -, heq⟩ | ⟨p, later, hp, heq⟩ | ⟨later, -, heq⟩ | ⟨later, -, heq⟩ := step_cases hfault
  · rw [heq]
    exact exec_stopsAtUnwritten (s := { s with inputs := later }) (decodeAcc16_wellFormed d v)
      fun p _ => readsInside_of_not_command (isCommand_decodeAcc16 d v) p
  · rw [heq]
    refine exec_stopsAtUnwritten (s := { s with inputs := later }) (decodeCmd32_wellFormed p.word) fun p' hp' => ?_
    obtain rfl := Engine.busy.inj (hp.symm.trans hp')
    exact readsInside_of_inv h hp
  · exact heq ▸ stopsAtUnwritten_next _ _
  · exact heq ▸ stopsAtUnwritten_next _ _

/-- An outcome is a next state where it neither faults nor refuses. -/
theorem exists_next_of_not_stops {o : Out} (hfault : ∀ k, o ≠ .fault (.uninitRead k)) (hrefused : ∀ r, o ≠ .refused r) :
    ∃ t, o = .next t := by
  match o with
  | .next t => exact ⟨t, rfl⟩
  | .fault (.uninitRead k) => exact absurd rfl (hfault k)
  | .refused r => exact absurd rfl (hrefused r)

/-- Settles O44: a step stops at an unwritten byte alone, of which a full buffer has none. -/
theorem stepStopsOnlyAtAnUnwrittenByte : Obligations.StepStopsOnlyAtAnUnwrittenByte := by
  intro s h hfault
  obtain ⟨hstop, hrefused⟩ := step_stopsAtUnwritten h hfault
  refine ⟨hstop, hrefused, fun hfull => exists_next_of_not_stops (fun k hk => ?_) hrefused⟩
  obtain ⟨hlt, hnone⟩ := hstop k hk
  exact hfull k hlt hnone

/-! ### A pending command ends -/

/-- The run has ended the pending command: it is completed or reset, or a fault is recorded. -/
def Ended (s : State) : Prop := s.engine = .idle ∨ s.fault ≠ none

/-- A run over one step of an invariant state: its next state, or a recorded fault. -/
theorem advance_cases {s : State} (h : Inv s) (hfault : s.fault = none) :
    (∃ t, step s = .next t ∧ advance s = t) ∨ (advance s).fault ≠ none := by
  obtain ⟨-, hrefused⟩ := step_stopsAtUnwritten h hfault
  match hstep : step s with
  | .next t => exact .inl ⟨t, rfl, advance_of_next hstep⟩
  | .fault (.uninitRead k) =>
    rw [advance_of_fault hstep, State.recordFault_fault]
    exact .inr (Option.some_ne_none k)
  | .refused r => exact absurd hstep (hrefused r)

/-- One step of a busy run either ends the pending command or takes a host access off the steps to come and keeps it pending. -/
theorem advance_of_isBusy {s : State} (h : Inv s) (hfault : s.fault = none) (hbusy : IsBusy s) :
    Ended (advance s)
      ∨ (Inv (advance s) ∧ (advance s).fault = none ∧ IsBusy (advance s)
          ∧ ∃ e, s.inputs = e :: (advance s).inputs) := by
  obtain ⟨t, hstep, heq⟩ | hstopped := advance_cases h hfault
  · rw [heq]
    obtain ⟨p, hp⟩ := hbusy
    obtain ⟨d, v, later, hin, hrun⟩ | ⟨q, later, hq, hrun⟩ | ⟨later, hidle, -⟩ | ⟨later, -, hreset⟩ := step_cases hfault
    · have heffect := exec_effect (hrun.symm.trans hstep)
      obtain ⟨hengine, -⟩ := heffect.frozen_of_isBusy (isCommand_decodeAcc16 d v) ⟨p, hp⟩
      refine .inr ⟨stepKeepsTheInvariant s t h hstep, heffect.fault_eq.trans hfault, ⟨p, hengine.trans hp⟩, .access d v, ?_⟩
      rw [heffect.inputs_eq, hin]
    · obtain ⟨hlegal, -⟩ := h.pendingAccepted q hq
      exact .inl (.inl ((exec_effect (hrun.symm.trans hstep)).engine_of_isBusy
        ((isCommand_decodeCmd32 q.word).trans hlegal) ⟨q, hq⟩))
    · simp [hp] at hidle
    · obtain rfl := Host.Outcome.next.inj (hreset.symm.trans hstep)
      exact .inl (.inl rfl)
  · exact .inl (.inr hstopped)

/-- By induction on the steps to come: while the command is pending each step takes one of them off. -/
theorem exists_ended {s : State} (h : Inv s) (hfault : s.fault = none) (hbusy : IsBusy s) :
    ∃ n, n ≤ s.inputs.length + 1 ∧ Ended (advanceN n s) := by
  induction hlen : s.inputs.length generalizing s with
  | zero =>
    obtain hended | ⟨-, -, -, e, hin⟩ := advance_of_isBusy h hfault hbusy
    · exact ⟨1, Nat.le_refl 1, hended⟩
    · simp [hin] at hlen
  | succ m ih =>
    obtain hended | ⟨hinv, hfault', hbusy', e, hin⟩ := advance_of_isBusy h hfault hbusy
    · exact ⟨1, Nat.le_add_left 1 _, hended⟩
    · obtain ⟨n, hn, hended⟩ := ih hinv hfault' hbusy' (by simpa [hin] using hlen)
      exact ⟨n + 1, Nat.succ_le_succ hn, hended⟩

/-- Settles O49: the steps to come bound the steps before the engine's turn. -/
theorem pendingCommandEnds : Obligations.PendingCommandEnds :=
  fun _ p h hfault hp => exists_ended h hfault ⟨p, hp⟩

/-! ### The two error rows -/

/-- The direction bit is the highest bit of a descriptor (30_encoding.md R75). -/
theorem accDescriptor_toNat_lt_iff (wr : Bool) (sz : BitVec 2) (off : BitVec 13) :
    (accDescriptor wr sz off).toNat < 32768 ↔ wr = false := by
  rw [accDescriptor_toNat]
  cases wr <;> simp <;> omega

/-- Settles O21: the direction is the highest bit, and the row does the same in both phases. -/
theorem illegalAccessRecordsAccess : Obligations.IllegalAccessRecordsAccess := by
  intro d s
  obtain ⟨wr, sz, off, rfl⟩ := exists_eq_accDescriptor d
  rw [exec_illegalAccess_accDescriptor]
  simp only [accDescriptor_toNat_lt_iff]
  cases wr <;> rfl

/-- Settles O24: while IDLE the row is the issue of its word, which the first check rejects; while BUSY it raises the error BUSY. -/
theorem illegalCommandIsRejected : Obligations.IllegalCommandIsRejected := by
  refine fun w s hillegal => ⟨fun hidle => ?_, fun ⟨p, hp⟩ => ?_⟩
  · rw [← issue_of_not_legalBits hillegal]
    exact commandStep_of_idle hidle _ _
  · have hbusy : withError 4#4 s = s.raise .busy := (raise_eq_withError .busy s).symm
    rw [hbusy]
    exact commandStep_of_busy hp _ _

end Sys2Proof
end

section
/-!
The three tables (40_tables.md) and what their linearity gives: the residue of the EDC (41_edc.md R116, R118), and the parity verifier as
the vanishing of two syndromes for each codeword (42_ecc.md R138). A shift step, a doubling and a basis value are each linear, so the tables
are; a major group verifies when its stored bytes solve the two syndrome equations, which ECC_B solves.
-/

namespace Sys2Proof

open Machine Claims

/-! ### Linearity -/

theorem ite_xor_distrib {n : Nat} (a b : Bool) (c : BitVec n) :
    (if (a ^^ b) then c else 0#n) = (if a then c else 0#n) ^^^ (if b then c else 0#n) := by
  cases a <;> cases b <;> simp

theorem edcShift_xor (c d : Word) : edcShift (c ^^^ d) = edcShift c ^^^ edcShift d := by
  rw [edcShift, edcShift, edcShift, BitVec.ushiftRight_xor_distrib, BitVec.getLsbD_xor, ite_xor_distrib]
  ac_rfl

theorem edcShifts_xor (n : Nat) (c d : Word) : edcShifts n (c ^^^ d) = edcShifts n c ^^^ edcShifts n d := by
  induction n generalizing c d with
  | zero => rfl
  | succ n ih => rw [edcShifts, edcShift_xor, ih, edcShifts, edcShifts]

theorem edcLut_xor (i j : Byte) : edcLut (i ^^^ j) = edcLut i ^^^ edcLut j := by
  rw [edcLut, BitVec.setWidth_xor, edcShifts_xor, edcLut, edcLut]

theorem eccF_xor (i j : Byte) : eccF (i ^^^ j) = eccF i ^^^ eccF j := by
  rw [eccF, eccF, eccF, BitVec.shiftLeft_xor_distrib, BitVec.getLsbD_xor, ite_xor_distrib]
  ac_rfl

theorem eccBasis_xor (i j : Byte) (bit : Nat) (value : Byte) :
    eccBasis (i ^^^ j) bit value = eccBasis i bit value ^^^ eccBasis j bit value := by
  rw [eccBasis, BitVec.getLsbD_xor, ite_xor_distrib, eccBasis, eccBasis]

theorem eccB_xor (i j : Byte) : eccB (i ^^^ j) = eccB i ^^^ eccB j := by
  simp only [eccB, eccBasis_xor]
  ac_rfl

/-- Settles O35: each table is linear as its steps are; the listed entries are evaluated. -/
theorem tablesAreLinear : Obligations.TablesAreLinear :=
  ⟨fun i j => ⟨edcLut_xor i j, eccF_xor i j, eccB_xor i j⟩, by decide, by decide, by decide, by decide, by decide, by decide, by decide,
    by decide, by decide, by decide, by decide, by decide⟩

/-! ### The closed forms -/

theorem toNat_edcShift (c : Word) : (edcShift c).toNat = shiftStep c.toNat := by
  have hbit : c.getLsbD 0 = decide (c.toNat % 2 = 1) := by
    rw [← BitVec.testBit_toNat, Nat.testBit_zero]
  rw [edcShift, BitVec.toNat_xor, BitVec.toNat_ushiftRight, Nat.shiftRight_eq_div_pow, pow_one, hbit, shiftStep,
    apply_ite BitVec.toNat]
  simp only [decide_eq_true_iff]
  rfl

theorem eccF_toNat : ∀ i : Byte, (eccF i).toNat = (2 * i.toNat ^^^ (if 128 ≤ i.toNat then 0x11D else 0)) % 256 := by
  decide

theorem eccB_xor_eccF : ∀ j : Byte, eccB j ^^^ eccF (eccB j) = j := by
  decide

/-- ECC_B is the inverse of the map `i ↦ i ^ ECC_F[i]` (40_tables.md R102). -/
theorem eccB_eq_iff (i j : Byte) : eccB j = i ↔ i ^^^ eccF i = j := by
  constructor
  · rintro rfl
    exact eccB_xor_eccF j
  · rintro rfl
    exact eccB_spec i

/-- Settles O36: eight shift steps on numbers, and the two byte tables entry by entry. -/
theorem tablesAreThoseOfTheRules : Obligations.TablesAreThoseOfTheRules := by
  refine ⟨fun i => ?_, eccF_toNat, eccB_eq_iff⟩
  simp only [edcLut, edcShifts, toNat_edcShift, BitVec.toNat_setWidth_of_le (show 8 ≤ 32 by decide)]

/-! ### The residue of the EDC -/

theorem edcLut_zero : edcLut 0#8 = 0#32 := by decide

/-- Folding the low byte of an accumulator into it shifts it out. -/
theorem edcStep_low (acc : Word) : edcStep acc (acc.extractLsb' 0 8) = acc >>> 8 := by
  have hindex : (acc ^^^ (acc.extractLsb' 0 8).setWidth 32).setWidth 8 = 0#8 := by
    rw [BitVec.setWidth_xor, setWidth_setWidth_word _ (by decide), BitVec.setWidth_eq_extractLsb' (by decide), BitVec.xor_self]
  rw [edcStep, hindex, edcLut_zero, BitVec.xor_zero]

/-- The same for the byte of a word that `n` shifts have brought to its low end. -/
theorem edcStep_shifted (e : Word) (n : Nat) : edcStep (e >>> n) (e.extractLsb' n 8) = e >>> (n + 8) := by
  have hbyte : e.extractLsb' n 8 = (e >>> n).extractLsb' 0 8 := BitVec.eq_of_toNat_eq (by simp)
  rw [hbyte, edcStep_low, BitVec.shiftRight_add]

theorem edcUpdate_own_bytes (e : Word) :
    edcUpdate e [e.extractLsb' 0 8, e.extractLsb' 8 8, e.extractLsb' 16 8, e.extractLsb' 24 8] = 0#32 := by
  rw [edcUpdate_cons, edcStep_low, edcUpdate_cons, edcStep_shifted, edcUpdate_cons, edcStep_shifted, edcUpdate_cons, edcStep_shifted,
    edcUpdate_nil]
  exact BitVec.ushiftRight_eq_zero (by decide)

theorem edcUpdate_zeros (n : Nat) : edcUpdate 0#32 (List.replicate n 0#8) = 0#32 := by
  have hstep : edcStep 0#32 0#8 = 0#32 := by decide
  induction n with
  | zero => rfl
  | succ n ih => rw [List.replicate_succ, edcUpdate_cons, hstep, ih]

/-- Settles O34: the bytes of an EDC, folded into it, shift it out; a zero byte leaves 0 at 0. -/
theorem edcResidueIsZero : Obligations.EdcResidueIsZero := by
  refine ⟨?_, edcUpdate_zeros⟩
  rintro x _ rfl
  rw [edcUpdate_append, edcUpdate_own_bytes]

/-! ### The syndromes of a codeword -/

theorem alphaTimes_xor (n : Nat) (v w : Byte) : alphaTimes n (v ^^^ w) = alphaTimes n v ^^^ alphaTimes n w := by
  induction n generalizing v w with
  | zero => rfl
  | succ n ih => rw [alphaTimes, eccF_xor, ih, alphaTimes, alphaTimes]

theorem xorSum_append (x y : List Byte) : xorSum (x ++ y) = xorSum x ^^^ xorSum y := by
  induction x with
  | nil => simp [xorSum]
  | cons b x ih => rw [List.cons_append, xorSum, ih, xorSum, BitVec.xor_assoc]

/-- The second accumulator is the sum of the data. -/
theorem eccFold_snd (a b : Byte) (data : List Byte) : (eccFold a b data).2 = b ^^^ xorSum data := by
  induction data generalizing a b with
  | nil => simp [eccFold, xorSum]
  | cons t data ih => rw [eccFold, ih, xorSum, BitVec.xor_assoc]

/-- The first accumulator is the weighted sum of the data, without the last two weights. -/
theorem weightedSum_append_pair (a b : Byte) (data : List Byte) (p q : Byte) :
    alphaTimes (data.length + 1) a ^^^ weightedSum (data ++ [p, q]) = eccF (eccFold a b data).1 ^^^ eccF p ^^^ q := by
  induction data generalizing a b with
  | nil => simp [weightedSum, alphaTimes, eccFold, BitVec.xor_assoc]
  | cons t data ih =>
    have hlength : (data ++ [p, q]).length = data.length + 2 := by simp
    rw [eccFold, ← ih, List.cons_append, weightedSum, hlength, ← BitVec.xor_assoc, List.length_cons, ← alphaTimes_xor]
    rfl

/-- The two syndrome equations in the stored bytes: the sum gives the second from the first, and the weighted sum then leaves the equation
that ECC_B solves. -/
theorem syndromes_eq_zero_iff (a b p q : Byte) :
    (b ^^^ (p ^^^ q) = 0#8 ∧ eccF a ^^^ eccF p ^^^ q = 0#8) ↔ p = eccB (eccF a ^^^ b) ∧ q = eccB (eccF a ^^^ b) ^^^ b := by
  have hsum : b ^^^ (p ^^^ q) = 0#8 ↔ q = p ^^^ b := by
    have hsides : b ^^^ (p ^^^ q) = q ^^^ (p ^^^ b) := by ac_rfl
    rw [hsides, BitVec.xor_eq_zero_iff]
  have hweighted : eccF a ^^^ eccF p ^^^ (p ^^^ b) = 0#8 ↔ p = eccB (eccF a ^^^ b) := by
    have hsides : eccF a ^^^ eccF p ^^^ (p ^^^ b) = (p ^^^ eccF p) ^^^ (eccF a ^^^ b) := by ac_rfl
    rw [hsides, BitVec.xor_eq_zero_iff, eq_comm (a := p) (b := eccB _), eccB_eq_iff]
  calc (b ^^^ (p ^^^ q) = 0#8 ∧ eccF a ^^^ eccF p ^^^ q = 0#8)
    _ ↔ q = p ^^^ b ∧ eccF a ^^^ eccF p ^^^ (p ^^^ b) = 0#8 := by rw [hsum]; exact and_congr_right fun hq => by rw [hq]
    _ ↔ q = p ^^^ b ∧ p = eccB (eccF a ^^^ b) := by rw [hweighted]
    _ ↔ p = eccB (eccF a ^^^ b) ∧ q = eccB (eccF a ^^^ b) ^^^ b := by rw [and_comm]; exact and_congr_right fun hp => by rw [← hp]

theorem alphaTimes_zero (n : Nat) : alphaTimes n 0#8 = 0#8 := by
  simpa using alphaTimes_xor n 0#8 0#8

/-- The two stored bytes are the parity of their data exactly when both syndromes of the codeword vanish (42_ecc.md R138). -/
theorem eccParity_eq_iff (data : List Byte) (p q : Byte) :
    (p = (eccParity data).1 ∧ q = (eccParity data).2) ↔
      xorSum (data ++ [p, q]) = 0#8 ∧ weightedSum (data ++ [p, q]) = 0#8 := by
  have hsum : xorSum (data ++ [p, q]) = (eccFold 0#8 0#8 data).2 ^^^ (p ^^^ q) := by
    simp [xorSum_append, eccFold_snd, xorSum]
  have hweighted : weightedSum (data ++ [p, q]) = eccF (eccFold 0#8 0#8 data).1 ^^^ eccF p ^^^ q := by
    rw [← weightedSum_append_pair, alphaTimes_zero, BitVec.zero_xor]
  rw [hsum, hweighted, syndromes_eq_zero_iff]
  rfl

/-! ### The codewords -/

theorem viewByte_eq_zByte (B : Int → Byte) (vb : Int) (za : Bool) (j : Int) : viewByte B vb za j = zByte B vb za j := by
  simp only [viewByte, zByte, Bool.and_eq_true, decide_eq_true_iff, and_assoc]

theorem eccNext_eq_mod {g : Geometry} (hinc : g.minorInc ≤ g.majorCount * g.minorCount) {index : Nat}
    (h : index < g.majorCount * g.minorCount) : eccNext g index = (index + g.minorInc) % (g.majorCount * g.minorCount) := by
  unfold eccNext
  split_ifs with hwrap
  · rw [Nat.mod_eq_sub_mod hwrap, Nat.mod_eq_of_lt (by omega)]
  · rw [Nat.mod_eq_of_lt (by omega)]

/-- The walk of a major group is an arithmetic progression in the cyclic block (42_ecc.md R131). -/
theorem eccIndices_eq {g : Geometry} (hinc : g.minorInc ≤ g.majorCount * g.minorCount) (n : Nat) {index : Nat}
    (h : index < g.majorCount * g.minorCount) :
    eccIndices g n index = (List.range n).map fun m => (index + g.minorInc * m) % (g.majorCount * g.minorCount) := by
  induction n generalizing index with
  | zero => rfl
  | succ n ih =>
    rw [eccIndices, ih (eccNext_lt hinc h), eccNext_eq_mod hinc h, List.range_succ_eq_map, List.map_cons, List.map_map]
    congr 1
    · rw [Nat.mul_zero, Nat.add_zero, Nat.mod_eq_of_lt h]
    · refine List.map_congr_left fun m _ => ?_
      rw [Nat.mod_add_mod, Function.comp_apply, Nat.mul_succ, Nat.add_right_comm, Nat.add_assoc]

/-- The codeword of a major group: its data bytes in the order of the walk, then its two stored bytes. -/
def codeword (B : Int → Byte) (vb : Int) (za : Bool) (g : Geometry) (dest major : Nat) : List Byte :=
  eccGroupData B vb za g major ++ [viewByte B vb za (dest + major : Nat), viewByte B vb za (dest + major + g.majorCount : Nat)]

/-- A code verifies exactly when both syndromes of each of its codewords vanish. -/
theorem eccBlock_iff (B : Int → Byte) (vb : Int) (za : Bool) (g : Geometry) (dest : Nat) :
    eccBlock B vb za g dest = true ↔ ∀ major, major < g.majorCount →
      xorSum (codeword B vb za g dest major) = 0#8 ∧ weightedSum (codeword B vb za g dest major) = 0#8 := by
  simp only [eccBlock, List.all_eq_true, List.mem_range, eccGroupOk, Bool.and_eq_true, beq_iff_eq, eccParity_eq_iff, codeword]

theorem codeword_pCode (B : Int → Byte) (vb : Int) (za : Bool) (dest : Nat) {major : Nat} (h : major < 86) :
    codeword B vb za Config.pCode dest major = pCodeword B vb za dest major := by
  have hwalk : eccIndices Config.pCode 24 (eccStart Config.pCode major) = (List.range 24).map fun m => major + 86 * m := by
    have hstart : eccStart Config.pCode major = major := Nat.div_add_mod' major 2
    rw [eccIndices_eq (by decide) 24 (eccStart_pCode_lt h), hstart]
    refine List.map_congr_left fun m hm => Nat.mod_eq_of_lt ?_
    have hlast : m < 24 := List.mem_range.1 hm
    show major + 86 * m < 86 * 24
    omega
  have hdata : eccGroupData B vb za Config.pCode major
      = (List.range 24).map fun (m : Nat) => zByte B vb za (vb + 12 + major + 86 * m) := by
    have hcount : Config.pCode.minorCount = 24 := rfl
    rw [eccGroupData, hcount, hwalk, List.map_map]
    refine List.map_congr_left fun m _ => ?_
    rw [Function.comp_apply, viewByte_eq_zByte, Nat.cast_add, Nat.cast_mul, ← add_assoc]
    rfl
  rw [codeword, hdata, viewByte_eq_zByte, viewByte_eq_zByte]
  rfl

theorem codeword_qCode (B : Int → Byte) (vb : Int) (za : Bool) (dest : Nat) {major : Nat} (h : major < 52) :
    codeword B vb za Config.qCode (dest + 172) major = qCodeword B vb za dest major := by
  have hdata : eccGroupData B vb za Config.qCode major = (List.range 43).map fun (m : Nat) =>
      zByte B vb za (vb + 12 + ((major / 2 * 86 + major % 2 + 88 * m) % 2236 : Nat)) := by
    have hcount : Config.qCode.minorCount = 43 := rfl
    rw [eccGroupData, hcount, eccIndices_eq (by decide) 43 (eccStart_qCode_lt h), List.map_map]
    exact List.map_congr_left fun m _ => viewByte_eq_zByte _ _ _ _
  rw [codeword, hdata, viewByte_eq_zByte, viewByte_eq_zByte]
  rfl

theorem eccBlock_pCode_iff (B : Int → Byte) (vb : Int) (za : Bool) (dest : Nat) :
    eccBlock B vb za Config.pCode dest = true ↔ ∀ major, major < 86 →
      xorSum (pCodeword B vb za dest major) = 0#8 ∧ weightedSum (pCodeword B vb za dest major) = 0#8 :=
  (eccBlock_iff B vb za Config.pCode dest).trans (forall₂_congr fun _ h => by rw [codeword_pCode B vb za dest h])

theorem eccBlock_qCode_iff (B : Int → Byte) (vb : Int) (za : Bool) (dest : Nat) :
    eccBlock B vb za Config.qCode (dest + 172) = true ↔ ∀ major, major < 52 →
      xorSum (qCodeword B vb za dest major) = 0#8 ∧ weightedSum (qCodeword B vb za dest major) = 0#8 :=
  (eccBlock_iff B vb za Config.qCode (dest + 172)).trans (forall₂_congr fun _ h => by rw [codeword_qCode B vb za dest h])

/-- Settles O37: each code by its codewords; Q is evaluated only where P verifies. -/
theorem eccVerifiesExactlyWhenSyndromesVanish : Obligations.EccVerifiesExactlyWhenSyndromesVanish := by
  intro B vb za dest
  rw [← eccBlock_pCode_iff, ← eccBlock_qCode_iff, eccVerify]
  split <;> simp_all

/-- Settles O38: the data of both codes and their stored parity lie in the read set, but for the address field that the view masks. -/
theorem eccVerifyDependsOnItsReadSetAlone : Obligations.EccVerifyDependsOnItsReadSetAlone :=
  fun _ _ _ _ _ h => eccVerify_congr h

end Sys2Proof
end

section
/-!
The classifier (44_classify.md R161, R163, R164): with its short-circuits its cascade is one evaluation of the regions, from the candidates
that the header and the subheader leave; with its running checksum each region is checksummed from 0.
-/

namespace Sys2Proof

open Machine Claims

/-! ### The checksums of the regions -/

theorem byteRange_eq_bytes (B : Int → Byte) (n : Nat) : byteRange B 0 n = bytes B 0 n := by
  simp [byteRange, bytes, List.range_eq_range']

theorem byteRange_add (B : Int → Byte) (lo m n : Nat) : byteRange B lo (m + n) = byteRange B lo m ++ byteRange B (lo + m) n := by
  rw [byteRange, ← List.range'_append_1, List.map_append]
  rfl

/-- The running checksum over a region is the checksum from 0 over all bytes up to its end (41_edc.md R112). -/
theorem edcUpdate_running (B : Int → Byte) (m n : Nat) :
    edcUpdate (edcUpdate 0#32 (bytes B 0 m)) (byteRange B m n) = edcUpdate 0#32 (bytes B 0 (m + n)) := by
  rw [← edcUpdate_append, ← byteRange_eq_bytes, ← byteRange_eq_bytes, byteRange_add, Nat.zero_add]

theorem storedEdc_iff (B : Int → Byte) (k : Nat) (e : Word) : StoredEdc B k e ↔ (e == le32 B k) = true := by
  rw [StoredEdc, ← toNat_le32, BitVec.toNat_inj, beq_iff_eq]

/-! ### The cascade -/

theorem hdrOk_iff (B : Int → Byte) : hdrOk B = true ↔ SyncOk B ∧ ModeOk B ∧ RsvdOk B := by
  rw [hdrOk, Bool.and_eq_true, Bool.and_eq_true, syncOk_iff, modeOk_iff, rsvdOk_iff, and_assoc]

/-- Steps 4 to 7, each region with its own checksum. -/
theorem classifyRegions_iff (B : Int → Byte) (c1 c2 c3 : Bool) :
    ((classifyRegions B c1 c2 c3).c1 = true ↔
        c1 = true ∧ StoredEdc B 0x810 (edcUpdate 0#32 (bytes B 0 0x810)) ∧ eccVerify B 0 false 0x81C = (true, true))
      ∧ ((classifyRegions B c1 c2 c3).c2 = true ↔
        c2 = true ∧ StoredEdc B 0x808 (edcUpdate 0#32 (bytes B 0 0x808)) ∧ eccVerify B (-16) true 0x80C = (true, true))
      ∧ ((classifyRegions B c1 c2 c3).c3 = true ↔ c3 = true ∧ StoredEdc B 0x91C (edcUpdate 0#32 (bytes B 0 0x91C))) := by
  simp only [classifyRegions, byteRange_eq_bytes, edcUpdate_running, storedEdc_iff, Bool.and_eq_true, beq_iff_eq (a := eccVerify _ _ _ _),
    and_assoc, and_self]

/-- No candidate, no class: the short-circuits leave out what would reject nothing (44_classify.md R163). -/
theorem classifyRegions_false (B : Int → Byte) : classifyRegions B false false false = ⟨.literal, false, false, false⟩ := by
  simp only [classifyRegions, Bool.false_and]
  rfl

/-- From 2336 bytes on, the cascade is steps 4 to 7 from the candidates of steps 2 and 3. -/
theorem classify_of_le {avail : Nat} (h : 2336 ≤ avail) (B : Int → Byte) (m1 : Bool) :
    classify B avail m1 = classifyRegions B (m1 && hdrOk B) (subCheck B) (subCheck B) := by
  rw [classify, if_neg h.not_gt]
  cases hsub : subCheck B
  · cases hhdr : m1 && hdrOk B
    · exact (classifyRegions_false B).symm
    · rfl
  · rfl

theorem classify_cls (B : Int → Byte) (avail : Nat) (m1 : Bool) :
    (classify B avail m1).cls = priorityClass (classify B avail m1).c1 (classify B avail m1).c2 (classify B avail m1).c3 := by
  obtain hshort | hlong := Nat.lt_or_ge avail 2336
  · rw [classify_of_short hshort]
    rfl
  · rw [classify_of_le hlong]
    rfl

/-- The survivors of a classification, each by the checks of its own type. -/
theorem classify_iff (B : Int → Byte) (avail : Nat) (m1 : Bool) :
    ((classify B avail m1).c1 = true ↔
        2336 ≤ avail ∧ m1 = true ∧ (SyncOk B ∧ ModeOk B ∧ RsvdOk B) ∧ StoredEdc B 0x810 (edcUpdate 0#32 (bytes B 0 0x810))
          ∧ eccVerify B 0 false 0x81C = (true, true))
      ∧ ((classify B avail m1).c2 = true ↔
        2336 ≤ avail ∧ SubOk B ∧ StoredEdc B 0x808 (edcUpdate 0#32 (bytes B 0 0x808))
          ∧ eccVerify B (-16) true 0x80C = (true, true))
      ∧ ((classify B avail m1).c3 = true ↔
        2336 ≤ avail ∧ SubOk B ∧ StoredEdc B 0x91C (edcUpdate 0#32 (bytes B 0 0x91C))) := by
  obtain hshort | hlong := Nat.lt_or_ge avail 2336
  · rw [classify_of_short hshort]
    simp [hshort.not_ge]
  · obtain ⟨h1, h2, h3⟩ := classifyRegions_iff B (m1 && hdrOk B) (subCheck B) (subCheck B)
    rw [classify_of_le hlong, h1, h2, h3, Bool.and_eq_true, hdrOk_iff, subCheck_iff]
    simp only [hlong, true_and, and_assoc]

/-- Settles O39: the survivors by their checks, and the class as the first of them. -/
theorem classifyIsItsClosedForm : Obligations.ClassifyIsItsClosedForm := by
  intro B avail m1
  obtain ⟨h1, h2, h3⟩ := classify_iff B avail m1
  exact ⟨h1, h2, h3, classify_cls B avail m1⟩

/-! ### Mode1 against the mode-2 types -/

/-- A sync pattern has 0x00 at offset 0 and 0xFF at offset 4 (43_sync_subheader.md R155). -/
theorem not_subOk_of_syncOk {B : Int → Byte} (h : SyncOk B) : ¬ SubOk B := by
  obtain ⟨hfirst, hmiddle, -⟩ := h
  rintro ⟨hcopy, -⟩
  have hfifth : B 4 = 0xFF#8 := hmiddle 4 (by decide) (by decide)
  rw [hfirst, hfifth] at hcopy
  exact absurd hcopy (by decide)

/-- Settles O40: the sync pattern that Mode1 needs is no subheader; without M1 Mode1 is no candidate, so no survivor. -/
theorem mode1ExcludesMode2 : Obligations.Mode1ExcludesMode2 := by
  refine fun B avail m1 => ⟨fun hmode1 => ?_, not_subOk_of_syncOk, ?_⟩
  · obtain ⟨h1, h2, h3⟩ := classify_iff B avail m1
    obtain ⟨-, -, ⟨hsync, -, -⟩, -⟩ := h1.1 hmode1
    rw [← Bool.not_eq_true, ← Bool.not_eq_true, h2, h3]
    exact ⟨fun ⟨_, hsub, _⟩ => not_subOk_of_syncOk hsync hsub, fun ⟨_, hsub, _⟩ => not_subOk_of_syncOk hsync hsub⟩
  · obtain ⟨h1, -, -⟩ := classify_iff B avail false
    have hnone : (classify B avail false).c1 = false := by
      rw [← Bool.not_eq_true, h1]
      rintro ⟨-, hm1, -⟩
      cases hm1
    rw [classify_cls, hnone, priorityClass, if_neg Bool.false_ne_true]
    split_ifs <;> decide

end Sys2Proof
end
